-- ==== Sys2Proof/Word.lean ====
section
/-! DEFINITION. The two data widths of the F2MC-8FX CPU: a byte is 8 bits and a word is 16 bits throughout
(spec/00_scope.md R2). Addresses are words (spec/20_memory.md R60). -/

namespace Sys2Proof

/-- An 8-bit byte. -/
abbrev Byte := BitVec 8

/-- A 16-bit word: a dedicated register, an address, a 16-bit operand. -/
abbrev Word := BitVec 16

end Sys2Proof
end

