-- ==== Sys2Proof/Machine/Bits.lean ====
section
/-! DEFINITION. Halves of a word, byte order and sign extension (spec/00_scope.md R13). -/

namespace Sys2Proof

/-- The upper half `w[15:8]` of a word. -/
def hi (w : Word) : Byte := w.extractLsb' 8 8

/-- The lower half `w[7:0]` of a word. -/
def lo (w : Word) : Byte := w.extractLsb' 0 8

/-- The concatenation `{h, l}`, the upper byte first: the layout of a word in memory, on the stack and in an
instruction's operand (20_memory R64, R65). -/
def join (h l : Byte) : Word := h ++ l

/-- `sext_16(v)` of a byte (00_scope R13). -/
def sext (v : Byte) : Word := v.signExtend 16

/-- `1 << b` as a byte: the mask of bit `b` (30_encoding R106). -/
def bitMask (b : Nat) : Byte := 1#8 <<< b

end Sys2Proof
end

