-- ==== Sys2Proof/Syntax.lean ====
section
/-! DEFINITION. The instructions of the F2MC-8FX CPU: one constructor for each of the 136 rows of
spec/opcode_table.json (30_encoding R120, R121), in the four groups of R127. An operand byte is a `Byte`, a 16-bit
operand a `Word` (its two bytes joined, upper byte first, 20_memory R65); the register number `i`, the bit position
`b` and the vector number `vct` are numbers that WellFormed bounds. Operands stand in the order of the mnemonic
(30_encoding R115). -/

namespace Sys2Proof

/-- One instruction, decoded. -/
inductive Instr where
  -- Transfer instructions, Table A.2-1 (40_transfer.md)
  /-- MOV A,#d8 (R148). -/
  | movAImm (d8 : Byte)
  /-- MOV A,dir (R149). -/
  | movADir (dir : Byte)
  /-- MOV A,@IX+off (R150). -/
  | movAAtIx (off : Byte)
  /-- MOV A,@EP (R153). -/
  | movAAtEp
  /-- MOV A,Ri (R154). -/
  | movAReg (i : Nat)
  /-- SWAP (R182). -/
  | swap
  /-- XCH A,T (R185). -/
  | xchAT
  /-- XCHW A,T (R186). -/
  | xchwAT
  /-- MOV dir,A (R143). -/
  | movDirA (dir : Byte)
  /-- MOV @IX+off,A (R144). -/
  | movAtIxA (off : Byte)
  /-- MOV @EP,A (R146). -/
  | movAtEpA
  /-- MOV Ri,A (R147). -/
  | movRegA (i : Nat)
  /-- MOV A,ext (R151). -/
  | movAExt (ext : Word)
  /-- MOV ext,A (R145). -/
  | movExtA (ext : Word)
  /-- MOVW A,PS (R179). -/
  | movwAPs
  /-- MOVW PS,A (R180). -/
  | movwPsA
  /-- MOV @A,T (R176). -/
  | movAtAT
  /-- MOVW @A,T (R177). -/
  | movwAtAT
  /-- MOV dir,#d8 (R155). -/
  | movDirImm (dir : Byte) (d8 : Byte)
  /-- MOV @IX+off,#d8 (R156). -/
  | movAtIxImm (off : Byte) (d8 : Byte)
  /-- MOV @EP,#d8 (R157). -/
  | movAtEpImm (d8 : Byte)
  /-- MOV Ri,#d8 (R158). -/
  | movRegImm (i : Nat) (d8 : Byte)
  /-- MOV A,@A (R152). -/
  | movAAtA
  /-- MOVW A,@A (R168). -/
  | movwAAtA
  /-- CLRB dir:b (R184). -/
  | clrb (dir : Byte) (b : Nat)
  /-- SETB dir:b (R183). -/
  | setb (dir : Byte) (b : Nat)
  /-- MOVW A,ext (R167). -/
  | movwAExt (ext : Word)
  /-- MOVW A,dir (R165). -/
  | movwADir (dir : Byte)
  /-- MOVW A,@IX+off (R166). -/
  | movwAAtIx (off : Byte)
  /-- MOVW A,@EP (R169). -/
  | movwAAtEp
  /-- MOVW ext,A (R161). -/
  | movwExtA (ext : Word)
  /-- MOVW dir,A (R159). -/
  | movwDirA (dir : Byte)
  /-- MOVW @IX+off,A (R160). -/
  | movwAtIxA (off : Byte)
  /-- MOVW @EP,A (R162). -/
  | movwAtEpA
  /-- MOVW SP,A (R174). -/
  | movwSpA
  /-- MOVW IX,A (R172). -/
  | movwIxA
  /-- MOVW EP,A (R163). -/
  | movwEpA
  /-- MOVW A,#d16 (R164). -/
  | movwAImm (d16 : Word)
  /-- MOVW SP,#d16 (R181). -/
  | movwSpImm (d16 : Word)
  /-- MOVW IX,#d16 (R178). -/
  | movwIxImm (d16 : Word)
  /-- MOVW EP,#d16 (R171). -/
  | movwEpImm (d16 : Word)
  /-- MOVW A,PC (R188). -/
  | movwAPc
  /-- MOVW A,SP (R175). -/
  | movwASp
  /-- MOVW A,IX (R173). -/
  | movwAIx
  /-- MOVW A,EP (R170). -/
  | movwAEp
  /-- XCHW A,SP (R190). -/
  | xchwASp
  /-- XCHW A,IX (R189). -/
  | xchwAIx
  /-- XCHW A,EP (R187). -/
  | xchwAEp
  -- Operation instructions, Table A.2-2 (41_arithmetic.md)
  /-- MULU A (R261). -/
  | muluA
  /-- ROLC A (R265). -/
  | rolcA
  /-- RORC A (R266). -/
  | rorcA
  /-- DIVU A (R262). -/
  | divuA
  /-- CMP A (R221). -/
  | cmpA
  /-- CMPW A (R222). -/
  | cmpwA
  /-- CMP A,#d8 (R223). -/
  | cmpAImm (d8 : Byte)
  /-- CMP A,dir (R224). -/
  | cmpADir (dir : Byte)
  /-- CMP A,@IX+off (R226). -/
  | cmpAAtIx (off : Byte)
  /-- CMP A,@EP (R225). -/
  | cmpAAtEp
  /-- CMP A,Ri (R227). -/
  | cmpAReg (i : Nat)
  /-- ADDC A (R213). -/
  | addcA
  /-- ADDCW A (R212). -/
  | addcwA
  /-- ADDC A,#d8 (R208). -/
  | addcAImm (d8 : Byte)
  /-- ADDC A,dir (R209). -/
  | addcADir (dir : Byte)
  /-- ADDC A,@IX+off (R210). -/
  | addcAAtIx (off : Byte)
  /-- ADDC A,@EP (R211). -/
  | addcAAtEp
  /-- ADDC A,Ri (R207). -/
  | addcAReg (i : Nat)
  /-- SUBC A (R220). -/
  | subcA
  /-- SUBCW A (R219). -/
  | subcwA
  /-- SUBC A,#d8 (R215). -/
  | subcAImm (d8 : Byte)
  /-- SUBC A,dir (R216). -/
  | subcADir (dir : Byte)
  /-- SUBC A,@IX+off (R217). -/
  | subcAAtIx (off : Byte)
  /-- SUBC A,@EP (R218). -/
  | subcAAtEp
  /-- SUBC A,Ri (R214). -/
  | subcAReg (i : Nat)
  /-- XOR A (R246). -/
  | xorA
  /-- XORW A (R252). -/
  | xorwA
  /-- XOR A,#d8 (R247). -/
  | xorAImm (d8 : Byte)
  /-- XOR A,dir (R248). -/
  | xorADir (dir : Byte)
  /-- XOR A,@IX+off (R250). -/
  | xorAAtIx (off : Byte)
  /-- XOR A,@EP (R249). -/
  | xorAAtEp
  /-- XOR A,Ri (R251). -/
  | xorAReg (i : Nat)
  /-- AND A (R232). -/
  | andA
  /-- ANDW A (R238). -/
  | andwA
  /-- AND A,#d8 (R233). -/
  | andAImm (d8 : Byte)
  /-- AND A,dir (R234). -/
  | andADir (dir : Byte)
  /-- AND A,@IX+off (R236). -/
  | andAAtIx (off : Byte)
  /-- AND A,@EP (R235). -/
  | andAAtEp
  /-- AND A,Ri (R237). -/
  | andAReg (i : Nat)
  /-- OR A (R239). -/
  | orA
  /-- ORW A (R245). -/
  | orwA
  /-- OR A,#d8 (R240). -/
  | orAImm (d8 : Byte)
  /-- OR A,dir (R241). -/
  | orADir (dir : Byte)
  /-- OR A,@IX+off (R243). -/
  | orAAtIx (off : Byte)
  /-- OR A,@EP (R242). -/
  | orAAtEp
  /-- OR A,Ri (R244). -/
  | orAReg (i : Nat)
  /-- DAA (R267). -/
  | daa
  /-- DAS (R270). -/
  | das
  /-- CMP dir,#d8 (R228). -/
  | cmpDirImm (dir : Byte) (d8 : Byte)
  /-- CMP @IX+off,#d8 (R230). -/
  | cmpAtIxImm (off : Byte) (d8 : Byte)
  /-- CMP @EP,#d8 (R229). -/
  | cmpAtEpImm (d8 : Byte)
  /-- CMP Ri,#d8 (R231). -/
  | cmpRegImm (i : Nat) (d8 : Byte)
  /-- INCW A (R255). -/
  | incwA
  /-- INCW SP (R253). -/
  | incwSp
  /-- INCW IX (R259). -/
  | incwIx
  /-- INCW EP (R257). -/
  | incwEp
  /-- INC Ri (R263). -/
  | incReg (i : Nat)
  /-- DECW A (R256). -/
  | decwA
  /-- DECW SP (R254). -/
  | decwSp
  /-- DECW IX (R260). -/
  | decwIx
  /-- DECW EP (R258). -/
  | decwEp
  /-- DEC Ri (R264). -/
  | decReg (i : Nat)
  -- Branch instructions, Table A.2-3 (42_branch.md)
  /-- RET (R299). -/
  | ret
  /-- JMP ext (R295). -/
  | jmpExt (ext : Word)
  /-- RETI (R300). -/
  | reti
  /-- CALL ext (R296). -/
  | callExt (ext : Word)
  /-- BBC dir:b,rel (R292). -/
  | bbc (dir : Byte) (b : Nat) (rel : Byte)
  /-- BBS dir:b,rel (R293). -/
  | bbs (dir : Byte) (b : Nat) (rel : Byte)
  /-- JMP @A (R294). -/
  | jmpAtA
  /-- CALLV #vct (R297). -/
  | callv (vct : Nat)
  /-- XCHW A,PC (R298). -/
  | xchwAPc
  /-- BNC rel / BHS rel (R286). -/
  | bnc (rel : Byte)
  /-- BC rel / BLO rel (R285). -/
  | bc (rel : Byte)
  /-- BP rel (R288). -/
  | bp (rel : Byte)
  /-- BN rel (R287). -/
  | bn (rel : Byte)
  /-- BNZ rel / BNE rel (R284). -/
  | bnz (rel : Byte)
  /-- BZ rel / BEQ rel (R283). -/
  | bz (rel : Byte)
  /-- BGE rel (R290). -/
  | bge (rel : Byte)
  /-- BLT rel (R289). -/
  | blt (rel : Byte)
  -- Other instructions, Table A.2-4 (43_other.md)
  /-- NOP (R326). -/
  | nop
  /-- PUSHW A (R321). -/
  | pushwA
  /-- PUSHW IX (R323). -/
  | pushwIx
  /-- POPW A (R322). -/
  | popwA
  /-- POPW IX (R324). -/
  | popwIx
  /-- CLRI (R329). -/
  | clri
  /-- CLRC (R327). -/
  | clrc
  /-- SETI (R330). -/
  | seti
  /-- SETC (R328). -/
  | setc
deriving DecidableEq, Repr

end Sys2Proof
end

