-- ==== Sys2Proof/WellFormed.lean ====
section
/-! DEFINITION. What makes an instruction well formed: a register number, a bit position and a vector number is one
of 0 to 7, the values of the 3-bit field that holds it (30_encoding R103, R123). Every value of every other operand is
legal (R123). -/

namespace Sys2Proof

/-- A register number `i` names one of R0 to R7 (10_state R40). -/
def registerNumberOk (i : Nat) : Bool := decide (i < 8)

/-- A bit position `b` is one of 7 to 0 (30_encoding R106). -/
def bitNumberOk (b : Nat) : Bool := decide (b < 8)

/-- A vector number is one of the 8 entries of the CALLV table (20_memory R71). -/
def vectorNumberOk (vct : Nat) : Bool := decide (vct < 8)

/-- The instruction's numbers are in range: it is one that the encoding can hold. -/
def Instr.wellFormed : Instr → Bool
  | .movAImm _ => true
  | .movADir _ => true
  | .movAAtIx _ => true
  | .movAAtEp => true
  | .movAReg i => registerNumberOk i
  | .swap => true
  | .xchAT => true
  | .xchwAT => true
  | .movDirA _ => true
  | .movAtIxA _ => true
  | .movAtEpA => true
  | .movRegA i => registerNumberOk i
  | .movAExt _ => true
  | .movExtA _ => true
  | .movwAPs => true
  | .movwPsA => true
  | .movAtAT => true
  | .movwAtAT => true
  | .movDirImm _ _ => true
  | .movAtIxImm _ _ => true
  | .movAtEpImm _ => true
  | .movRegImm i _ => registerNumberOk i
  | .movAAtA => true
  | .movwAAtA => true
  | .clrb _ b => bitNumberOk b
  | .setb _ b => bitNumberOk b
  | .movwAExt _ => true
  | .movwADir _ => true
  | .movwAAtIx _ => true
  | .movwAAtEp => true
  | .movwExtA _ => true
  | .movwDirA _ => true
  | .movwAtIxA _ => true
  | .movwAtEpA => true
  | .movwSpA => true
  | .movwIxA => true
  | .movwEpA => true
  | .movwAImm _ => true
  | .movwSpImm _ => true
  | .movwIxImm _ => true
  | .movwEpImm _ => true
  | .movwAPc => true
  | .movwASp => true
  | .movwAIx => true
  | .movwAEp => true
  | .xchwASp => true
  | .xchwAIx => true
  | .xchwAEp => true
  | .muluA => true
  | .rolcA => true
  | .rorcA => true
  | .divuA => true
  | .cmpA => true
  | .cmpwA => true
  | .cmpAImm _ => true
  | .cmpADir _ => true
  | .cmpAAtIx _ => true
  | .cmpAAtEp => true
  | .cmpAReg i => registerNumberOk i
  | .addcA => true
  | .addcwA => true
  | .addcAImm _ => true
  | .addcADir _ => true
  | .addcAAtIx _ => true
  | .addcAAtEp => true
  | .addcAReg i => registerNumberOk i
  | .subcA => true
  | .subcwA => true
  | .subcAImm _ => true
  | .subcADir _ => true
  | .subcAAtIx _ => true
  | .subcAAtEp => true
  | .subcAReg i => registerNumberOk i
  | .xorA => true
  | .xorwA => true
  | .xorAImm _ => true
  | .xorADir _ => true
  | .xorAAtIx _ => true
  | .xorAAtEp => true
  | .xorAReg i => registerNumberOk i
  | .andA => true
  | .andwA => true
  | .andAImm _ => true
  | .andADir _ => true
  | .andAAtIx _ => true
  | .andAAtEp => true
  | .andAReg i => registerNumberOk i
  | .orA => true
  | .orwA => true
  | .orAImm _ => true
  | .orADir _ => true
  | .orAAtIx _ => true
  | .orAAtEp => true
  | .orAReg i => registerNumberOk i
  | .daa => true
  | .das => true
  | .cmpDirImm _ _ => true
  | .cmpAtIxImm _ _ => true
  | .cmpAtEpImm _ => true
  | .cmpRegImm i _ => registerNumberOk i
  | .incwA => true
  | .incwSp => true
  | .incwIx => true
  | .incwEp => true
  | .incReg i => registerNumberOk i
  | .decwA => true
  | .decwSp => true
  | .decwIx => true
  | .decwEp => true
  | .decReg i => registerNumberOk i
  | .ret => true
  | .jmpExt _ => true
  | .reti => true
  | .callExt _ => true
  | .bbc _ b _ => bitNumberOk b
  | .bbs _ b _ => bitNumberOk b
  | .jmpAtA => true
  | .callv vct => vectorNumberOk vct
  | .xchwAPc => true
  | .bnc _ => true
  | .bc _ => true
  | .bp _ => true
  | .bn _ => true
  | .bnz _ => true
  | .bz _ => true
  | .bge _ => true
  | .blt _ => true
  | .nop => true
  | .pushwA => true
  | .pushwIx => true
  | .popwA => true
  | .popwIx => true
  | .clri => true
  | .clrc => true
  | .seti => true
  | .setc => true

end Sys2Proof
end

