-- ==== Sys2Proof/Decode.lean ====
section
/-! DEFINITION. The decoder, the encoder and the opcode table (spec/30_encoding.md, spec/opcode_table.json).

The first byte alone fixes the instruction, its length and the meaning of its operand bytes (R100, R116). A row of the
table holds the mask and the match of that first byte and the layout of the instruction (R102); rows with a 3-bit field
in bits 2..0 of the first byte have the mask F8H (R103). 44H matches no row (R122). -/

namespace Sys2Proof

/-- Why a byte sequence is no instruction. -/
inductive DecodeError where
  /-- The first byte is assigned to no instruction: 44H (30_encoding R122). -/
  | undefinedOpcode (op : Byte)
  /-- The sequence ends before the instruction does (30_encoding R116). -/
  | truncated
deriving DecidableEq, Repr

/-- The byte layouts of 30_encoding R102, each with the instruction it builds from its fields. The name says what
follows the opcode: `field` is the 3-bit field of the opcode byte. -/
inductive Layout where
  /-- INH: the opcode byte alone. -/
  | inh (i : Instr)
  /-- REG, VCT: a 3-bit field in the opcode byte. -/
  | field (f : Nat → Instr)
  /-- IMM8, DIR, IXD, REL: one operand byte. -/
  | byte (f : Byte → Instr)
  /-- REG_IMM8, BITDIR: a 3-bit field and one operand byte. -/
  | fieldByte (f : Nat → Byte → Instr)
  /-- EXT, IMM16: a 16-bit operand, upper byte first (20_memory R65). -/
  | word (f : Word → Instr)
  /-- DIR_IMM8, IXD_IMM8: two operand bytes, in the order of the mnemonic (R115). -/
  | bytes (f : Byte → Byte → Instr)
  /-- BITDIR_REL: a 3-bit field and two operand bytes. -/
  | fieldBytes (f : Nat → Byte → Byte → Instr)

/-- The length in bytes of an instruction of this layout (R102). -/
def Layout.length : Layout → Nat
  | .inh _ => 1
  | .field _ => 1
  | .byte _ => 2
  | .fieldByte _ => 2
  | .word _ => 3
  | .bytes _ => 3
  | .fieldBytes _ => 3

/-- A row of the opcode table: it matches a first byte `op` when `op AND mask = pattern`. -/
structure OpcodeRow where
  pattern : Byte
  mask : Byte
  layout : Layout

/-- The row matches this first byte. -/
def OpcodeRow.accepts (r : OpcodeRow) (op : Byte) : Bool := (op &&& r.mask) == r.pattern

/-- A row for a single first byte. -/
def single (op : Byte) (l : Layout) : OpcodeRow := ⟨op, 0xFF#8, l⟩

/-- A row for the 8 first bytes from `op` on: bits 2..0 are a field. -/
def block (op : Byte) (l : Layout) : OpcodeRow := ⟨op, 0xF8#8, l⟩

/-- The rows of first bytes 00H to 0FH (30_encoding R120). -/
def opcodeRows0 : List OpcodeRow :=
  [ single 0x00#8 (.inh .nop),
    single 0x01#8 (.inh .muluA),
    single 0x02#8 (.inh .rolcA),
    single 0x03#8 (.inh .rorcA),
    single 0x04#8 (.byte .movAImm),
    single 0x05#8 (.byte .movADir),
    single 0x06#8 (.byte .movAAtIx),
    single 0x07#8 (.inh .movAAtEp),
    block 0x08#8 (.field .movAReg) ]

/-- The rows of first bytes 10H to 1FH (30_encoding R120). -/
def opcodeRows1 : List OpcodeRow :=
  [ single 0x10#8 (.inh .swap),
    single 0x11#8 (.inh .divuA),
    single 0x12#8 (.inh .cmpA),
    single 0x13#8 (.inh .cmpwA),
    single 0x14#8 (.byte .cmpAImm),
    single 0x15#8 (.byte .cmpADir),
    single 0x16#8 (.byte .cmpAAtIx),
    single 0x17#8 (.inh .cmpAAtEp),
    block 0x18#8 (.field .cmpAReg) ]

/-- The rows of first bytes 20H to 2FH (30_encoding R120). -/
def opcodeRows2 : List OpcodeRow :=
  [ single 0x20#8 (.inh .ret),
    single 0x21#8 (.word .jmpExt),
    single 0x22#8 (.inh .addcA),
    single 0x23#8 (.inh .addcwA),
    single 0x24#8 (.byte .addcAImm),
    single 0x25#8 (.byte .addcADir),
    single 0x26#8 (.byte .addcAAtIx),
    single 0x27#8 (.inh .addcAAtEp),
    block 0x28#8 (.field .addcAReg) ]

/-- The rows of first bytes 30H to 3FH (30_encoding R120). -/
def opcodeRows3 : List OpcodeRow :=
  [ single 0x30#8 (.inh .reti),
    single 0x31#8 (.word .callExt),
    single 0x32#8 (.inh .subcA),
    single 0x33#8 (.inh .subcwA),
    single 0x34#8 (.byte .subcAImm),
    single 0x35#8 (.byte .subcADir),
    single 0x36#8 (.byte .subcAAtIx),
    single 0x37#8 (.inh .subcAAtEp),
    block 0x38#8 (.field .subcAReg) ]

/-- The rows of first bytes 40H to 4FH (30_encoding R120). -/
def opcodeRows4 : List OpcodeRow :=
  [ single 0x40#8 (.inh .pushwA),
    single 0x41#8 (.inh .pushwIx),
    single 0x42#8 (.inh .xchAT),
    single 0x43#8 (.inh .xchwAT),
    single 0x45#8 (.byte .movDirA),
    single 0x46#8 (.byte .movAtIxA),
    single 0x47#8 (.inh .movAtEpA),
    block 0x48#8 (.field .movRegA) ]

/-- The rows of first bytes 50H to 5FH (30_encoding R120). -/
def opcodeRows5 : List OpcodeRow :=
  [ single 0x50#8 (.inh .popwA),
    single 0x51#8 (.inh .popwIx),
    single 0x52#8 (.inh .xorA),
    single 0x53#8 (.inh .xorwA),
    single 0x54#8 (.byte .xorAImm),
    single 0x55#8 (.byte .xorADir),
    single 0x56#8 (.byte .xorAAtIx),
    single 0x57#8 (.inh .xorAAtEp),
    block 0x58#8 (.field .xorAReg) ]

/-- The rows of first bytes 60H to 6FH (30_encoding R120). -/
def opcodeRows6 : List OpcodeRow :=
  [ single 0x60#8 (.word .movAExt),
    single 0x61#8 (.word .movExtA),
    single 0x62#8 (.inh .andA),
    single 0x63#8 (.inh .andwA),
    single 0x64#8 (.byte .andAImm),
    single 0x65#8 (.byte .andADir),
    single 0x66#8 (.byte .andAAtIx),
    single 0x67#8 (.inh .andAAtEp),
    block 0x68#8 (.field .andAReg) ]

/-- The rows of first bytes 70H to 7FH (30_encoding R120). -/
def opcodeRows7 : List OpcodeRow :=
  [ single 0x70#8 (.inh .movwAPs),
    single 0x71#8 (.inh .movwPsA),
    single 0x72#8 (.inh .orA),
    single 0x73#8 (.inh .orwA),
    single 0x74#8 (.byte .orAImm),
    single 0x75#8 (.byte .orADir),
    single 0x76#8 (.byte .orAAtIx),
    single 0x77#8 (.inh .orAAtEp),
    block 0x78#8 (.field .orAReg) ]

/-- The rows of first bytes 80H to 8FH (30_encoding R120). -/
def opcodeRows8 : List OpcodeRow :=
  [ single 0x80#8 (.inh .clri),
    single 0x81#8 (.inh .clrc),
    single 0x82#8 (.inh .movAtAT),
    single 0x83#8 (.inh .movwAtAT),
    single 0x84#8 (.inh .daa),
    single 0x85#8 (.bytes .movDirImm),
    single 0x86#8 (.bytes .movAtIxImm),
    single 0x87#8 (.byte .movAtEpImm),
    block 0x88#8 (.fieldByte .movRegImm) ]

/-- The rows of first bytes 90H to 9FH (30_encoding R120). -/
def opcodeRows9 : List OpcodeRow :=
  [ single 0x90#8 (.inh .seti),
    single 0x91#8 (.inh .setc),
    single 0x92#8 (.inh .movAAtA),
    single 0x93#8 (.inh .movwAAtA),
    single 0x94#8 (.inh .das),
    single 0x95#8 (.bytes .cmpDirImm),
    single 0x96#8 (.bytes .cmpAtIxImm),
    single 0x97#8 (.byte .cmpAtEpImm),
    block 0x98#8 (.fieldByte .cmpRegImm) ]

/-- The rows of first bytes A0H to AFH (30_encoding R120). -/
def opcodeRowsA : List OpcodeRow :=
  [ block 0xA0#8 (.fieldByte (fun b dir => .clrb dir b)),
    block 0xA8#8 (.fieldByte (fun b dir => .setb dir b)) ]

/-- The rows of first bytes B0H to BFH (30_encoding R120). -/
def opcodeRowsB : List OpcodeRow :=
  [ block 0xB0#8 (.fieldBytes (fun b dir rel => .bbc dir b rel)),
    block 0xB8#8 (.fieldBytes (fun b dir rel => .bbs dir b rel)) ]

/-- The rows of first bytes C0H to CFH (30_encoding R120). -/
def opcodeRowsC : List OpcodeRow :=
  [ single 0xC0#8 (.inh .incwA),
    single 0xC1#8 (.inh .incwSp),
    single 0xC2#8 (.inh .incwIx),
    single 0xC3#8 (.inh .incwEp),
    single 0xC4#8 (.word .movwAExt),
    single 0xC5#8 (.byte .movwADir),
    single 0xC6#8 (.byte .movwAAtIx),
    single 0xC7#8 (.inh .movwAAtEp),
    block 0xC8#8 (.field .incReg) ]

/-- The rows of first bytes D0H to DFH (30_encoding R120). -/
def opcodeRowsD : List OpcodeRow :=
  [ single 0xD0#8 (.inh .decwA),
    single 0xD1#8 (.inh .decwSp),
    single 0xD2#8 (.inh .decwIx),
    single 0xD3#8 (.inh .decwEp),
    single 0xD4#8 (.word .movwExtA),
    single 0xD5#8 (.byte .movwDirA),
    single 0xD6#8 (.byte .movwAtIxA),
    single 0xD7#8 (.inh .movwAtEpA),
    block 0xD8#8 (.field .decReg) ]

/-- The rows of first bytes E0H to EFH (30_encoding R120). -/
def opcodeRowsE : List OpcodeRow :=
  [ single 0xE0#8 (.inh .jmpAtA),
    single 0xE1#8 (.inh .movwSpA),
    single 0xE2#8 (.inh .movwIxA),
    single 0xE3#8 (.inh .movwEpA),
    single 0xE4#8 (.word .movwAImm),
    single 0xE5#8 (.word .movwSpImm),
    single 0xE6#8 (.word .movwIxImm),
    single 0xE7#8 (.word .movwEpImm),
    block 0xE8#8 (.field .callv) ]

/-- The rows of first bytes F0H to FFH (30_encoding R120). -/
def opcodeRowsF : List OpcodeRow :=
  [ single 0xF0#8 (.inh .movwAPc),
    single 0xF1#8 (.inh .movwASp),
    single 0xF2#8 (.inh .movwAIx),
    single 0xF3#8 (.inh .movwAEp),
    single 0xF4#8 (.inh .xchwAPc),
    single 0xF5#8 (.inh .xchwASp),
    single 0xF6#8 (.inh .xchwAIx),
    single 0xF7#8 (.inh .xchwAEp),
    single 0xF8#8 (.byte .bnc),
    single 0xF9#8 (.byte .bc),
    single 0xFA#8 (.byte .bp),
    single 0xFB#8 (.byte .bn),
    single 0xFC#8 (.byte .bnz),
    single 0xFD#8 (.byte .bz),
    single 0xFE#8 (.byte .bge),
    single 0xFF#8 (.byte .blt) ]

/-- The opcode table: 136 rows (30_encoding R120, spec/opcode_table.json). -/
def opcodeTable : List OpcodeRow :=
  opcodeRows0 ++ opcodeRows1 ++ opcodeRows2 ++ opcodeRows3 ++ opcodeRows4 ++ opcodeRows5 ++ opcodeRows6 ++ opcodeRows7 ++
  opcodeRows8 ++ opcodeRows9 ++ opcodeRowsA ++ opcodeRowsB ++ opcodeRowsC ++ opcodeRowsD ++ opcodeRowsE ++ opcodeRowsF

/-- The row of a first byte, if it has one. -/
def lookupOpcode (op : Byte) : Option OpcodeRow := opcodeTable.find? (·.accepts op)

/-- The length of the instruction that begins with this byte; 1 for 44H, which has none (30_encoding R116). -/
def opcodeLength (op : Byte) : Nat :=
  match lookupOpcode op with
  | some r => r.layout.length
  | none => 1

/-- The 3-bit field of an opcode byte, bits 2..0 (30_encoding R103). -/
def opcodeField (op : Byte) : Nat := (op &&& 7#8).toNat

/-- The instruction of this layout from its opcode byte and the bytes that follow, with the bytes left over. -/
def Layout.build (op : Byte) : Layout → List Byte → Except DecodeError (Instr × List Byte)
  | .inh i, rest => .ok (i, rest)
  | .field f, rest => .ok (f (opcodeField op), rest)
  | .byte f, b :: rest => .ok (f b, rest)
  | .byte _, [] => .error .truncated
  | .fieldByte f, b :: rest => .ok (f (opcodeField op) b, rest)
  | .fieldByte _, [] => .error .truncated
  | .word f, h :: l :: rest => .ok (f (join h l), rest)
  | .word _, [_] => .error .truncated
  | .word _, [] => .error .truncated
  | .bytes f, b :: b' :: rest => .ok (f b b', rest)
  | .bytes _, [_] => .error .truncated
  | .bytes _, [] => .error .truncated
  | .fieldBytes f, b :: b' :: rest => .ok (f (opcodeField op) b b', rest)
  | .fieldBytes _, [_] => .error .truncated
  | .fieldBytes _, [] => .error .truncated

/-- The instruction at the head of a byte sequence and the bytes after it, or why there is none (30_encoding R116). -/
def decode : List Byte → Except DecodeError (Instr × List Byte)
  | [] => .error .truncated
  | op :: rest =>
    match lookupOpcode op with
    | none => .error (.undefinedOpcode op)
    | some r => r.layout.build op rest

/-- An opcode byte that carries a 3-bit field: a block of 8 first bytes aligned on a multiple of 8
(30_encoding R103). -/
def withField (op : Byte) (n : Nat) : Byte := op + BitVec.ofNat 8 n

/-- The bytes of an instruction, in address order: the Encoding entry of its rule. -/
def encode : Instr → List Byte
  | .movAImm d8 => [0x04#8, d8]
  | .movADir dir => [0x05#8, dir]
  | .movAAtIx off => [0x06#8, off]
  | .movAAtEp => [0x07#8]
  | .movAReg i => [withField 0x08#8 i]
  | .swap => [0x10#8]
  | .xchAT => [0x42#8]
  | .xchwAT => [0x43#8]
  | .movDirA dir => [0x45#8, dir]
  | .movAtIxA off => [0x46#8, off]
  | .movAtEpA => [0x47#8]
  | .movRegA i => [withField 0x48#8 i]
  | .movAExt ext => [0x60#8, hi ext, lo ext]
  | .movExtA ext => [0x61#8, hi ext, lo ext]
  | .movwAPs => [0x70#8]
  | .movwPsA => [0x71#8]
  | .movAtAT => [0x82#8]
  | .movwAtAT => [0x83#8]
  | .movDirImm dir d8 => [0x85#8, dir, d8]
  | .movAtIxImm off d8 => [0x86#8, off, d8]
  | .movAtEpImm d8 => [0x87#8, d8]
  | .movRegImm i d8 => [withField 0x88#8 i, d8]
  | .movAAtA => [0x92#8]
  | .movwAAtA => [0x93#8]
  | .clrb dir b => [withField 0xA0#8 b, dir]
  | .setb dir b => [withField 0xA8#8 b, dir]
  | .movwAExt ext => [0xC4#8, hi ext, lo ext]
  | .movwADir dir => [0xC5#8, dir]
  | .movwAAtIx off => [0xC6#8, off]
  | .movwAAtEp => [0xC7#8]
  | .movwExtA ext => [0xD4#8, hi ext, lo ext]
  | .movwDirA dir => [0xD5#8, dir]
  | .movwAtIxA off => [0xD6#8, off]
  | .movwAtEpA => [0xD7#8]
  | .movwSpA => [0xE1#8]
  | .movwIxA => [0xE2#8]
  | .movwEpA => [0xE3#8]
  | .movwAImm d16 => [0xE4#8, hi d16, lo d16]
  | .movwSpImm d16 => [0xE5#8, hi d16, lo d16]
  | .movwIxImm d16 => [0xE6#8, hi d16, lo d16]
  | .movwEpImm d16 => [0xE7#8, hi d16, lo d16]
  | .movwAPc => [0xF0#8]
  | .movwASp => [0xF1#8]
  | .movwAIx => [0xF2#8]
  | .movwAEp => [0xF3#8]
  | .xchwASp => [0xF5#8]
  | .xchwAIx => [0xF6#8]
  | .xchwAEp => [0xF7#8]
  | .muluA => [0x01#8]
  | .rolcA => [0x02#8]
  | .rorcA => [0x03#8]
  | .divuA => [0x11#8]
  | .cmpA => [0x12#8]
  | .cmpwA => [0x13#8]
  | .cmpAImm d8 => [0x14#8, d8]
  | .cmpADir dir => [0x15#8, dir]
  | .cmpAAtIx off => [0x16#8, off]
  | .cmpAAtEp => [0x17#8]
  | .cmpAReg i => [withField 0x18#8 i]
  | .addcA => [0x22#8]
  | .addcwA => [0x23#8]
  | .addcAImm d8 => [0x24#8, d8]
  | .addcADir dir => [0x25#8, dir]
  | .addcAAtIx off => [0x26#8, off]
  | .addcAAtEp => [0x27#8]
  | .addcAReg i => [withField 0x28#8 i]
  | .subcA => [0x32#8]
  | .subcwA => [0x33#8]
  | .subcAImm d8 => [0x34#8, d8]
  | .subcADir dir => [0x35#8, dir]
  | .subcAAtIx off => [0x36#8, off]
  | .subcAAtEp => [0x37#8]
  | .subcAReg i => [withField 0x38#8 i]
  | .xorA => [0x52#8]
  | .xorwA => [0x53#8]
  | .xorAImm d8 => [0x54#8, d8]
  | .xorADir dir => [0x55#8, dir]
  | .xorAAtIx off => [0x56#8, off]
  | .xorAAtEp => [0x57#8]
  | .xorAReg i => [withField 0x58#8 i]
  | .andA => [0x62#8]
  | .andwA => [0x63#8]
  | .andAImm d8 => [0x64#8, d8]
  | .andADir dir => [0x65#8, dir]
  | .andAAtIx off => [0x66#8, off]
  | .andAAtEp => [0x67#8]
  | .andAReg i => [withField 0x68#8 i]
  | .orA => [0x72#8]
  | .orwA => [0x73#8]
  | .orAImm d8 => [0x74#8, d8]
  | .orADir dir => [0x75#8, dir]
  | .orAAtIx off => [0x76#8, off]
  | .orAAtEp => [0x77#8]
  | .orAReg i => [withField 0x78#8 i]
  | .daa => [0x84#8]
  | .das => [0x94#8]
  | .cmpDirImm dir d8 => [0x95#8, dir, d8]
  | .cmpAtIxImm off d8 => [0x96#8, off, d8]
  | .cmpAtEpImm d8 => [0x97#8, d8]
  | .cmpRegImm i d8 => [withField 0x98#8 i, d8]
  | .incwA => [0xC0#8]
  | .incwSp => [0xC1#8]
  | .incwIx => [0xC2#8]
  | .incwEp => [0xC3#8]
  | .incReg i => [withField 0xC8#8 i]
  | .decwA => [0xD0#8]
  | .decwSp => [0xD1#8]
  | .decwIx => [0xD2#8]
  | .decwEp => [0xD3#8]
  | .decReg i => [withField 0xD8#8 i]
  | .ret => [0x20#8]
  | .jmpExt ext => [0x21#8, hi ext, lo ext]
  | .reti => [0x30#8]
  | .callExt ext => [0x31#8, hi ext, lo ext]
  | .bbc dir b rel => [withField 0xB0#8 b, dir, rel]
  | .bbs dir b rel => [withField 0xB8#8 b, dir, rel]
  | .jmpAtA => [0xE0#8]
  | .callv vct => [withField 0xE8#8 vct]
  | .xchwAPc => [0xF4#8]
  | .bnc rel => [0xF8#8, rel]
  | .bc rel => [0xF9#8, rel]
  | .bp rel => [0xFA#8, rel]
  | .bn rel => [0xFB#8, rel]
  | .bnz rel => [0xFC#8, rel]
  | .bz rel => [0xFD#8, rel]
  | .bge rel => [0xFE#8, rel]
  | .blt rel => [0xFF#8, rel]
  | .nop => [0x00#8]
  | .pushwA => [0x40#8]
  | .pushwIx => [0x41#8]
  | .popwA => [0x50#8]
  | .popwIx => [0x51#8]
  | .clri => [0x80#8]
  | .clrc => [0x81#8]
  | .seti => [0x90#8]
  | .setc => [0x91#8]

/-- The length of an instruction in bytes: the sum of its opcode byte and operand bytes (30_encoding R102, R116). -/
def Instr.length (i : Instr) : Nat := (encode i).length

/-- Byte `k` of an instruction written as one number, bit 0 the least significant bit of the first byte and a later
byte's bits counting on from it (the numbering of spec/opcode_table.json). -/
def tableByte (w k : Nat) : Byte := BitVec.ofNat 8 (w / 2 ^ (8 * k))

/-- The three bytes, in address order, of a table row's `nbits` bits `w` with zeros above them. -/
def tableBytes (nbits w : Nat) : List Byte :=
  let v := w % 2 ^ nbits
  [tableByte v 0, tableByte v 1, tableByte v 2]

/-- The instruction the decoder reads from a table row's bits, or none where it refuses. -/
def decodeTableWord (nbits w : Nat) : Option Instr :=
  match decode (tableBytes nbits w) with
  | .ok (i, _) => some i
  | .error _ => none

end Sys2Proof
end

