-- ==== Sys2Proof/Config.lean ====
section
/-! DEFINITION. What the source leaves to each product, and the free values.

The parameters of 00_scope R9 that the CPU's behaviour reads, `MEM_MAP` and `N_IRQ`, are plain data of type `Product`;
the machine's State holds a value of it, so that a statement about every state is a statement about every product. The
free values `any1`, `any8`, `any16` (00_scope R13) and the environment's answers are constants without a body: nothing
can be proved about which value they are. -/

namespace Sys2Proof

/-- What stands at an address (92_eei_decisions D6, section 2). -/
inductive RegionKind where
  /-- RAM: a read returns the byte last written or loaded. -/
  | ram
  /-- ROM: a read returns the program image. -/
  | rom
  /-- I/O: a read returns what the environment supplies, a write goes to the environment. -/
  | io
  /-- Nothing: the product decides what an access does, so it goes to the environment as well. -/
  | absent
deriving DecidableEq, Repr

/-- The addresses `first` to `last`, both included, and what stands there. -/
structure Region where
  first : Word
  last : Word
  kind : RegionKind
deriving DecidableEq, Repr

/-- The parameters that a product fixes (00_scope R9). -/
structure Product where
  /-- `MEM_MAP`: the first region that holds an address decides its kind; an address in no region is RAM. -/
  memMap : List Region
  /-- `N_IRQ`: how many of the interrupt numbers #0 to #23 exist, 0 to 24 (decision D15). -/
  nIrq : Fin 25
deriving DecidableEq, Repr

/-- An access that left the CPU for an I/O or unpopulated address, or a write to ROM (20_memory R76 to R78). -/
inductive BusEvent where
  /-- A byte read, with the read-modify-write signal of the access and the byte the environment supplied. -/
  | read (addr : Word) (rmw : Bool) (value : Byte)
  /-- A byte write. -/
  | write (addr : Word) (value : Byte)
deriving DecidableEq, Repr

/-- What the environment answers to a read of an I/O or unpopulated address, given every access it has seen so far
(newest first), the address and the RMW signal (20_memory R62, R77, R78): free. DESIGN CHOICE (log 4): safe for claims
about one run. -/
opaque Config.busRead : List BusEvent → Word → Bool → Byte

/-- `any1`, drawn at a counter (00_scope R13): free (log 10). -/
opaque Config.freeBit : Nat → Bool

/-- `any8`, drawn at a counter (00_scope R13): free (log 10). -/
opaque Config.freeByte : Nat → Byte

/-- `any16`, drawn at a counter (00_scope R13): free (log 10). -/
opaque Config.freeWord : Nat → Word

end Sys2Proof
end

