-- ==== Sys2Proof/Machine/State.lean ====
section
/-! DEFINITION. The state of the machine, the reasons a step can stop, and the state after reset
(spec/10_state.md R45, spec/60_exceptions.md R341, spec/70_reset_and_hazards.md R381). -/

namespace Sys2Proof.Machine

/-- The faults of the CPU: there are none. No instruction raises a fault, trap or error of any kind (60_exceptions
R341), and every address of the space exists (20_memory R60, R74), so the type has no constructor. -/
inductive Fault
deriving DecidableEq, Repr

/-- Why the model gives no next state. -/
inductive Refusal where
  /-- Raised by an arm of `exec` whose instruction has no meaning yet; the argument is its mnemonic. Safe: the model
  stops where the hardware goes on. -/
  | notModelled (mnemonic : String)
  /-- The model-level event `UndefinedOpcode` (30_encoding R122, decision D1), raised by `step` when the first byte of
  the instruction at PC is assigned to no instruction (44H). It is no trap and no state changes. Safe: nothing is
  claimed of what the hardware does. -/
  | undefinedOpcode (op : Byte)
deriving DecidableEq, Repr

/-- The program status PS by its fields, from bit 15 down (10_state R28): no bit is reserved (R46), so the fields are
the whole register. `Status.toWord` and `Status.ofWord` give its 16-bit form. -/
structure Status where
  /-- RP, PS[15:11]: the register bank pointer (R29). -/
  rp : BitVec 5
  /-- DP, PS[10:8]: the direct bank pointer (R30). -/
  dp : BitVec 3
  /-- H, PS[7]: half carry (R32). -/
  h : Bool
  /-- I, PS[6]: interrupt enable (R33). -/
  i : Bool
  /-- IL = (IL1, IL0), PS[5:4]: the interrupt level (R34). -/
  il : BitVec 2
  /-- N, PS[3]: negative (R35). -/
  n : Bool
  /-- Z, PS[2]: zero (R36). -/
  z : Bool
  /-- V, PS[1]: overflow (R37). -/
  v : Bool
  /-- C, PS[0]: carry (R38). -/
  c : Bool
deriving DecidableEq, Repr

/-- The bytes of RAM and ROM as (address, byte) pairs, addresses strictly rising, none equal to what an unlisted address
reads as. -/
abbrev Memory := List Host.Cell

/-- An interrupt request as the interrupt controller presents it: its number and its level (60_exceptions R344). -/
structure Request where
  number : Nat
  level : BitVec 2
deriving DecidableEq, Repr

/-- What the environment presents at one instruction boundary: reset asserted or not, and no request or one
(60_exceptions R344, R345, R352; 70_reset R381). -/
structure Boundary where
  reset : Bool
  irq : Option Request
deriving DecidableEq, Repr

/-- The state of the CPU, its memory and its inputs (10_state R45). -/
structure State where
  /-- PC, the program counter (R21). -/
  pc : Word
  /-- A, the accumulator (R22). -/
  a : Word
  /-- T, the temporary accumulator (R23). -/
  t : Word
  /-- IX, the index register (R25). -/
  ix : Word
  /-- EP, the extra pointer (R26). -/
  ep : Word
  /-- SP, the stack pointer (R27). -/
  sp : Word
  /-- PS, the program status (R28). -/
  ps : Status
  /-- The memory's RAM and ROM bytes (20_memory R60). -/
  mem : Memory
  /-- The product's parameters (00_scope R9); no step changes them. -/
  product : Product
  /-- The environment's inputs: the boundary the machine stands at, then the boundaries to come. Past the end nothing is
  presented (log 6). -/
  inputs : List Boundary
  /-- The model's own: the accesses that left the CPU for the environment, newest first (log 4). -/
  bus : List BusEvent
  /-- The model's own: the counter at which the next free value is drawn (log 10). -/
  free : Nat
deriving DecidableEq, Repr

/-- PS after reset: RP = 00000B, DP = 000B, IL = 11B, every flag 0 (10_state R44); 0030H as a word. -/
def Status.reset : Status where
  rp := 0#5
  dp := 0#3
  h := false
  i := false
  il := 3#2
  n := false
  z := false
  v := false
  c := false

/-- The machine right after reset (10_state R44, 70_reset R382), with no byte of memory written, nothing presented by
the environment, and the product's parameters at the values of logs 3 and 8. PC is the word at FFFEH, which reads 0000H
in this memory (log 2). -/
def State.reset : State where
  pc := 0x0000#16
  a := 0x0000#16
  t := 0x0000#16
  ix := 0x0000#16
  ep := 0x0000#16
  sp := 0x0000#16
  ps := Status.reset
  mem := []
  product := { memMap := [], nIrq := 24 }
  inputs := []
  bus := []
  free := 0

end Sys2Proof.Machine
end

