-- ==== Sys2Proof/Machine/Registers.lean ====
section
/-! DEFINITION. The one-field updates of State and the halves of A and T (spec/10_state.md R22, R23). -/

namespace Sys2Proof.Machine

def State.withPc (x : Word) (s : State) : State := { s with pc := x }
def State.withA (x : Word) (s : State) : State := { s with a := x }
def State.withT (x : Word) (s : State) : State := { s with t := x }
def State.withIx (x : Word) (s : State) : State := { s with ix := x }
def State.withEp (x : Word) (s : State) : State := { s with ep := x }
def State.withSp (x : Word) (s : State) : State := { s with sp := x }
def State.withPs (x : Status) (s : State) : State := { s with ps := x }
def State.withMem (x : Memory) (s : State) : State := { s with mem := x }
def State.withProduct (x : Product) (s : State) : State := { s with product := x }
def State.withInputs (x : List Boundary) (s : State) : State := { s with inputs := x }
def State.withBus (x : List BusEvent) (s : State) : State := { s with bus := x }
def State.withFree (x : Nat) (s : State) : State := { s with free := x }

/-- AH = A[15:8] (10_state R22). -/
def State.ah (s : State) : Byte := hi s.a

/-- AL = A[7:0] (10_state R22). -/
def State.al (s : State) : Byte := lo s.a

/-- TH = T[15:8] (10_state R23). -/
def State.th (s : State) : Byte := hi s.t

/-- TL = T[7:0] (10_state R23). -/
def State.tl (s : State) : Byte := lo s.t

/-- A write of AL leaves AH unchanged (10_state R22). -/
def State.withAl (v : Byte) (s : State) : State := s.withA (join s.ah v)

/-- A write of TL leaves TH unchanged (10_state R24). -/
def State.withTl (v : Byte) (s : State) : State := s.withT (join s.th v)

/-- `nextPC` of an instruction of `n` bytes: the address of the byte after it (00_scope R13, 20_memory R75). -/
def State.nextPC (n : Nat) (s : State) : Word := s.pc + BitVec.ofNat 16 n

/-- `PC <- nextPC` (10_state R21). -/
def State.advance (n : Nat) (s : State) : State := s.withPc (s.nextPC n)

end Sys2Proof.Machine
end

