-- ==== Sys2Proof/Machine/Flags.lean ====
section
/-! DEFINITION. The program status as a word and its bytes (spec/10_state.md R28, R46), and every flag computation of
the instruction set (spec/40_transfer.md R142, spec/41_arithmetic.md R201 to R203, R255 to R270). -/

namespace Sys2Proof.Machine

/-- PSH = PS[15:8] = (RP, DP) (10_state R46). -/
def Status.high (p : Status) : Byte := p.rp ++ p.dp

/-- PSL = PS[7:0] = CCR = (H, I, IL1, IL0, N, Z, V, C) (10_state R31, R46). -/
def Status.low (p : Status) : Byte :=
  BitVec.ofBool p.h ++ BitVec.ofBool p.i ++ p.il ++ BitVec.ofBool p.n ++ BitVec.ofBool p.z ++ BitVec.ofBool p.v ++
    BitVec.ofBool p.c

/-- PS as a 16-bit word (10_state R28). -/
def Status.toWord (p : Status) : Word := join p.high p.low

/-- `RP <- v[7:3]; DP <- v[2:0]` (10_state R39). -/
def Status.withHigh (v : Byte) (p : Status) : Status := { p with rp := v.extractLsb' 3 5, dp := v.extractLsb' 0 3 }

/-- PS from its two bytes (10_state R28). -/
def Status.ofBytes (psh psl : Byte) : Status where
  rp := psh.extractLsb' 3 5
  dp := psh.extractLsb' 0 3
  h := psl.getLsbD 7
  i := psl.getLsbD 6
  il := psl.extractLsb' 4 2
  n := psl.getLsbD 3
  z := psl.getLsbD 2
  v := psl.getLsbD 1
  c := psl.getLsbD 0

/-- PS from a 16-bit word (10_state R28). -/
def Status.ofWord (w : Word) : Status := Status.ofBytes (hi w) (lo w)

/-- N and Z from a byte (40_transfer R142): N its most significant bit, Z whether it is 00H. -/
def Status.nzByte (r : Byte) (p : Status) : Status := { p with n := r.msb, z := r == 0#8 }

/-- N and Z from a word (40_transfer R142): N its most significant bit, Z whether it is 0000H. -/
def Status.nzWord (r : Word) (p : Status) : Status := { p with n := r.msb, z := r == 0#16 }

/-- `Logic8` (41_arithmetic R203): N, Z from the result, V cleared. -/
def Status.logicByte (r : Byte) (p : Status) : Status := { p.nzByte r with v := false }

/-- `Logic16` (41_arithmetic R203). -/
def Status.logicWord (r : Word) (p : Status) : Status := { p.nzWord r with v := false }

/-- A byte sum or difference with the flags the adder makes (41_arithmetic R201, R202). -/
structure ByteSum where
  r : Byte
  v : Bool
  c : Bool
  h : Bool
deriving DecidableEq, Repr

/-- A word sum or difference with the flags the adder makes; H is not among them (41_arithmetic R201, R202). -/
structure WordSum where
  r : Word
  v : Bool
  c : Bool
deriving DecidableEq, Repr

/-- `Add8(x, y, c)` (41_arithmetic R201). -/
def add8 (x y : Byte) (c : Bool) : ByteSum :=
  let s := x.toNat + y.toNat + c.toNat
  let e := x.toInt + y.toInt + (c.toNat : Int)
  { r := BitVec.ofNat 8 s
    v := decide (e < -128) || decide (127 < e)
    c := decide (256 ≤ s)
    h := decide (16 ≤ x.toNat % 16 + y.toNat % 16 + c.toNat) }

/-- `Add16(x, y, c)` without its free H (41_arithmetic R201). -/
def add16 (x y : Word) (c : Bool) : WordSum :=
  let s := x.toNat + y.toNat + c.toNat
  let e := x.toInt + y.toInt + (c.toNat : Int)
  { r := BitVec.ofNat 16 s
    v := decide (e < -32768) || decide (32767 < e)
    c := decide (65536 ≤ s) }

/-- `Sub8(x, y, c)`: x the minuend, C a borrow (41_arithmetic R202). -/
def sub8 (x y : Byte) (c : Bool) : ByteSum :=
  let d : Int := (x.toNat : Int) - (y.toNat : Int) - (c.toNat : Int)
  let e := x.toInt - y.toInt - (c.toNat : Int)
  { r := BitVec.ofInt 8 d
    v := decide (e < -128) || decide (127 < e)
    c := decide (d < 0)
    h := decide (x.toNat % 16 < y.toNat % 16 + c.toNat) }

/-- `Sub16(x, y, c)` without its free H (41_arithmetic R202). -/
def sub16 (x y : Word) (c : Bool) : WordSum :=
  let d : Int := (x.toNat : Int) - (y.toNat : Int) - (c.toNat : Int)
  let e := x.toInt - y.toInt - (c.toNat : Int)
  { r := BitVec.ofInt 16 d
    v := decide (e < -32768) || decide (32767 < e)
    c := decide (d < 0) }

/-- The flags N, Z, V, C and H of a byte addition or subtraction (41_arithmetic R205). -/
def Status.arithByte (f : ByteSum) (p : Status) : Status :=
  { p.nzByte f.r with v := f.v, c := f.c, h := f.h }

/-- The flags N, Z, V and C of a byte comparison, with the H it leaves (41_arithmetic R202). -/
def Status.compareByte (f : ByteSum) (h : Bool) (p : Status) : Status :=
  { p.nzByte f.r with v := f.v, c := f.c, h := h }

/-- The flags N, Z, V and C of a word sum, difference or comparison, with the H it leaves (41_arithmetic R201, R202). -/
def Status.arithWord (f : WordSum) (h : Bool) (p : Status) : Status :=
  { p.nzWord f.r with v := f.v, c := f.c, h := h }

/-- INCW A and DECW A: N and Z from the new A, with the H they leave (41_arithmetic R255, R256). -/
def Status.countWord (r : Word) (h : Bool) (p : Status) : Status := { p.nzWord r with h := h }

/-- INC Ri and DEC Ri: N and Z from the new byte, V as given, with the H they leave (41_arithmetic R263, R264). -/
def Status.countByte (r : Byte) (v h : Bool) (p : Status) : Status := { p.nzByte r with v := v, h := h }

/-- ROLC A: the byte and the carry after a 9-bit rotation of (C, AL) to the left (41_arithmetic R265). -/
def rotateLeft (x : Byte) (c : Bool) : Byte × Bool := (BitVec.ofNat 8 (x.toNat * 2 % 256 + c.toNat), x.getLsbD 7)

/-- RORC A: the byte and the carry after a 9-bit rotation of (AL, C) to the right (41_arithmetic R266). -/
def rotateRight (x : Byte) (c : Bool) : Byte × Bool := (BitVec.ofNat 8 (x.toNat / 2 + 128 * c.toNat), x.getLsbD 0)

/-- The flags N, Z and C of a rotation (41_arithmetic R265, R266). -/
def Status.rotate (r : Byte × Bool) (p : Status) : Status := { p.nzByte r.1 with c := r.2 }

/-- Table 6.26-1 (41_arithmetic R268): the correction value and the new carry for C, the upper digit, H and the lower
digit before DAA; none outside the table's nine rows (R269). -/
def daaRow (c : Bool) (u : Nat) (h : Bool) (l : Nat) : Option (Byte × Bool) :=
  match c, h with
  | false, false =>
    if u ≤ 9 ∧ l ≤ 9 then some (0x00#8, false)
    else if u ≤ 8 ∧ 10 ≤ l then some (0x06#8, false)
    else if 10 ≤ u ∧ l ≤ 9 then some (0x60#8, true)
    else if 9 ≤ u ∧ 10 ≤ l then some (0x66#8, true)
    else none
  | false, true =>
    if u ≤ 9 ∧ l ≤ 3 then some (0x06#8, false)
    else if 10 ≤ u ∧ l ≤ 3 then some (0x66#8, true)
    else none
  | true, false =>
    if u ≤ 2 ∧ l ≤ 9 then some (0x60#8, true)
    else if u ≤ 2 ∧ 10 ≤ l then some (0x66#8, true)
    else none
  | true, true =>
    if u ≤ 3 ∧ l ≤ 3 then some (0x66#8, true)
    else none

/-- The row of Table 6.26-1 for a value of AL. -/
def daaCorrection (c h : Bool) (al : Byte) : Option (Byte × Bool) := daaRow c (al.toNat / 16) h (al.toNat % 16)

/-- Table 6.27-1 (41_arithmetic R270): the correction value of DAS for C and H before it. -/
def dasCorrection (c h : Bool) : Byte :=
  match c, h with
  | false, false => 0x00#8
  | true, true => 0x66#8
  | false, true => 0x06#8
  | true, false => 0x60#8

/-- DAA with a correction `k` and the table's carry: the byte and the flags N, Z, V, C (41_arithmetic R267). -/
def Status.adjustAdd (x k : Byte) (c : Bool) (p : Status) : Status :=
  { p.nzByte (x + k) with v := decide (127 < x.toInt + k.toInt), c := c }

/-- DAS with a correction `k`: the flags N, Z and V; C keeps its value (41_arithmetic R270). -/
def Status.adjustSub (x k : Byte) (p : Status) : Status :=
  { p.nzByte (x - k) with v := decide (x.toInt - k.toInt < -128) }

end Sys2Proof.Machine
end

