-- ==== Sys2Proof/Machine/Operands.lean ====
section
/-! DEFINITION. The effective addresses of the operand forms (spec/30_encoding.md R104 to R114, spec/20_memory.md R66,
R68, R71, R72). All address arithmetic is modulo 65536 (20_memory R75, decision D5). -/

namespace Sys2Proof.Machine

/-- `DirAddr(d)` (20_memory R66): operands 00H to 7FH address 0000H to 007FH whatever DP is; operands 80H to FFH address
the direct bank that DP selects. -/
def dirAddr (d : Byte) (s : State) : Word :=
  if d.getLsbD 7 then d.setWidth 16 + 128#16 * s.ps.dp.setWidth 16 else d.setWidth 16

/-- `RegAddr(i)` = (00000001B, RP, i) (20_memory R68). -/
def regAddr (i : Nat) (s : State) : Word := 0x01#8 ++ s.ps.rp ++ BitVec.ofNat 3 i

/-- `EAix(off)`: IX plus the sign-extended offset (30_encoding R107). -/
def ixAddr (off : Byte) (s : State) : Word := s.ix + sext off

/-- `RelTarget(rel)` for an instruction of `n` bytes (42_branch R281). -/
def relTarget (n : Nat) (rel : Byte) (s : State) : Word := s.nextPC n + sext rel

/-- The address of entry `vct` of the CALLV table (20_memory R71). -/
def callvAddr (vct : Nat) : Word := 0xFFC0#16 + BitVec.ofNat 16 (2 * vct)

/-- `VecAddr(n)`, the address of the vector of interrupt number `n` (20_memory R72). -/
def irqVector (n : Nat) : Word := 0xFFFA#16 - BitVec.ofNat 16 (2 * n)

end Sys2Proof.Machine
end

