-- ==== Sys2Proof/Machine/Ops.lean ====
section
/-! DEFINITION. The operations that the instructions share: memory, the 0078H mirror of PS[15:8], the environment's
accesses, the stack, free values, taking an interrupt and returning from one, reset, and the fetch of an instruction's
bytes (spec/20_memory.md, spec/60_exceptions.md, spec/70_reset_and_hazards.md). -/

namespace Sys2Proof.Machine

/-! ## The memory list -/

/-- What a byte of memory that nothing has written reads as. DESIGN CHOICE 00H (log 1): unsafe, the source gives none
(70_reset R383). -/
def unlisted : Byte := 0x00#8

/-- The byte at an address of the list. -/
def Memory.read : Memory → Nat → Byte
  | [], _ => unlisted
  | (k, v) :: m, a => if a = k then v else Memory.read m a

/-- The list with a byte that is not `unlisted` at an address, in its place. -/
def Memory.insert : Memory → Nat → Byte → Memory
  | [], a, v => [(a, v)]
  | (k, w) :: m, a, v =>
    if a < k then (a, v) :: (k, w) :: m
    else if a = k then (a, v) :: m
    else (k, w) :: Memory.insert m a v

/-- The list without an address. -/
def Memory.erase (m : Memory) (a : Nat) : Memory := m.filter (fun cell => !(cell.1 == a))

/-- A write of one byte; it keeps the canonical form. -/
def Memory.write (m : Memory) (a : Nat) (v : Byte) : Memory :=
  if v = unlisted then m.erase a else m.insert a v

/-- The address of the mirror of PS[15:8] (20_memory R79). -/
def mirrorAddr : Word := 0x0078#16

/-- The canonical form: addresses strictly rising and below 65536, no byte equal to `unlisted`, and no cell behind the
mirror at 0078H (20_memory R79). -/
def Memory.wf : Memory → Bool
  | [] => true
  | [(a, v)] => decide (a < 65536) && !(a == 0x0078) && !(v == unlisted)
  | (a, v) :: (b, w) :: m =>
    decide (a < 65536) && !(a == 0x0078) && !(v == unlisted) && decide (a < b) && Memory.wf ((b, w) :: m)

/-! ## The memory map -/

/-- What `MEM_MAP` says of an address: the first region that holds it decides; RAM where none does. -/
def kindIn : List Region → Word → RegionKind
  | [], _ => .ram
  | r :: rs, a => if r.first ≤ a ∧ a ≤ r.last then r.kind else kindIn rs a

/-- What stands at an address in this state's product. -/
def State.kindAt (s : State) (a : Word) : RegionKind := kindIn s.product.memMap a

/-! ## Byte and word accesses -/

/-- A read that leaves the CPU: the environment supplies the byte and has seen the access (20_memory R62, R78). -/
def readBus (rmw : Bool) (a : Word) (s : State) : Byte × State :=
  let v := Config.busRead s.bus a rmw
  (v, s.withBus (.read a rmw v :: s.bus))

/-- `MemRead(a, 1)` with the RMW signal of the access (20_memory R62, R77, R79). -/
def readByte (rmw : Bool) (a : Word) (s : State) : Byte × State :=
  if a = mirrorAddr then (s.ps.high, s)
  else
    match s.kindAt a with
    | .ram => (s.mem.read a.toNat, s)
    | .rom => (s.mem.read a.toNat, s)
    | .io => readBus rmw a s
    | .absent => readBus rmw a s

/-- `MemWrite(a, 1, v)` (20_memory R63, R78, R79). A write to ROM leaves the image as it is (log 5). -/
def writeByte (a : Word) (v : Byte) (s : State) : State :=
  if a = mirrorAddr then s.withPs (s.ps.withHigh v)
  else
    match s.kindAt a with
    | .ram => s.withMem (s.mem.write a.toNat v)
    | .rom => s.withBus (.write a v :: s.bus)
    | .io => s.withBus (.write a v :: s.bus)
    | .absent => s.withBus (.write a v :: s.bus)

/-- The byte that a plain read of an address returns now. -/
def State.byteAt (s : State) (a : Word) : Byte := (readByte false a s).1

/-- `MemRead(a, 2)`: the byte at the lower address is the upper half and is read first (20_memory R62, R64). -/
def readWord (a : Word) (s : State) : Word × State :=
  let h := readByte false a s
  let l := readByte false (a + 1) h.2
  (join h.1 l.1, l.2)

/-- `MemWrite(a, 2, w)`: the upper half goes to the lower address and is written first (20_memory R63, R64). -/
def writeWord (a : Word) (w : Word) (s : State) : State := writeByte (a + 1) (lo w) (writeByte a (hi w) s)

/-- Read a byte and go on with it. -/
def withByte (a : Word) (k : Byte → State → State) (s : State) : State :=
  let r := readByte false a s
  k r.1 r.2

/-- Read a word and go on with it. -/
def withWord (a : Word) (k : Word → State → State) (s : State) : State :=
  let r := readWord a s
  k r.1 r.2

/-- Read-modify-write of one byte (20_memory R77): one read with the RMW signal, one write of the same address. -/
def modifyByte (a : Word) (f : Byte → Byte) (s : State) : State :=
  let r := readByte true a s
  writeByte a (f r.1) r.2

/-- The end of an instruction of `n` bytes that does not branch: `PC <- nextPC` (10_state R21). -/
def finish (n : Nat) (s : State) : Host.Outcome State Fault Refusal := .next (s.advance n)

/-! ## The stack (20_memory R70) -/

/-- `Push16(w)`: the lower byte at SP - 1 first, then the upper byte at SP - 2. -/
def push16 (w : Word) (s : State) : State :=
  (writeByte (s.sp - 2) (hi w) (writeByte (s.sp - 1) (lo w) s)).withSp (s.sp - 2)

/-- `Pop16()`: the upper byte at SP, read first, the lower byte at SP + 1. -/
def pop16 (s : State) : Word × State :=
  let r := readWord s.sp s
  (r.1, r.2.withSp (s.sp + 2))

/-! ## Free values (00_scope R13) -/

/-- Draw `any1`. -/
def drawBit (s : State) : Bool × State := (Config.freeBit s.free, s.withFree (s.free + 1))

/-- Draw `any8`. -/
def drawByte (s : State) : Byte × State := (Config.freeByte s.free, s.withFree (s.free + 1))

/-- Draw `any16`. -/
def drawWord (s : State) : Word × State := (Config.freeWord s.free, s.withFree (s.free + 1))

/-- Draw a bit and go on with it. -/
def withBit (k : Bool → State → State) (s : State) : State :=
  let r := drawBit s
  k r.1 r.2

/-! ## Interrupts (60_exceptions) -/

/-- The request is one that the controller of this product can present: its number exists (R344, decision D15). -/
def State.numberExists (s : State) (r : Request) : Bool := decide (r.number < s.product.nIrq.val)

/-- The acceptance condition of R346: `level < IL` as unsigned numbers and `I = 1`. -/
def State.accepts (s : State) (r : Request) : Bool := s.numberExists r && s.ps.i && decide (r.level < s.ps.il)

/-- `InterruptEntry(n, level)` (R350, R351, R353): the vector is read first; then the return address and the PS of the
interrupted program are written below SP; then SP, IL and PC. I is not changed (R351, decision D4, log 16). The PS saved
is the one the last completed instruction left (R354, log 15). DESIGN CHOICE (log 14): where the handler starts inside
this frame, the next fetch sees the bytes written here; 70_reset R388 claims no result for it. -/
def enterInterrupt (r : Request) (s : State) : State :=
  let v := readWord (irqVector r.number) s
  let s1 := writeByte (s.sp - 1) (lo s.pc) v.2
  let s2 := writeByte (s.sp - 2) (hi s.pc) s1
  let s3 := writeByte (s.sp - 3) s.ps.low s2
  let s4 := writeByte (s.sp - 4) s.ps.high s3
  ((s4.withPs { s4.ps with il := r.level }).withSp (s.sp - 4)).withPc v.1

/-- The return of RETI (42_branch R300, 60_exceptions R357): PS and then PC are popped; all 16 bits of PS are loaded. -/
def returnFromInterrupt (s : State) : State :=
  let p := readWord s.sp s
  let q := readWord (s.sp + 2) p.2
  ((q.2.withPs (Status.ofWord p.1)).withPc q.1).withSp (s.sp + 4)

/-- The boundary the machine stands at: nothing is presented past the end of the inputs (log 6). -/
def State.boundary (s : State) : Boundary := s.inputs.headD { reset := false, irq := none }

/-- The request accepted at the boundary the machine stands at (R346). Reset asserted at the same boundary wins (R352):
then none is. -/
def State.accepted (s : State) : Option Request :=
  if s.boundary.reset then none else s.boundary.irq.filter s.accepts

/-- Sample the request presented at the boundary that ends an instruction (R345). -/
def sampleInterrupt (s : State) : State :=
  match s.accepted with
  | none => s
  | some r => enterInterrupt r s

/-! ## Reset (70_reset_and_hazards) -/

/-- The address of the mode byte (20_memory R73). -/
def modeByteAddr : Word := 0xFFFD#16

/-- The address of the reset vector (20_memory R72). -/
def resetVector : Word := 0xFFFE#16

/-- `ResetSequence()` (R381): the mode byte is read and its value not used; no write is made. -/
def resetSequence (s : State) : State :=
  let s1 : State :=
    { s with a := 0x0000#16, t := 0x0000#16, ix := 0x0000#16, ep := 0x0000#16, sp := 0x0000#16, ps := Status.reset }
  let m := readByte false modeByteAddr s1
  let v := readWord resetVector m.2
  v.2.withPc v.1

/-! ## Fetch (20_memory R85, 60_exceptions R367) -/

/-- Read `n` consecutive bytes from an address on, in order. -/
def fetchBytes : Nat → Word → State → List Byte × State
  | 0, _, s => ([], s)
  | n + 1, a, s =>
    let r := readByte false a s
    let more := fetchBytes n (a + 1) r.2
    (r.1 :: more.1, more.2)

/-- The bytes of the instruction at PC: the opcode byte, and as many more as its length says (30_encoding R116), read
from memory as it stands now (20_memory R83). DESIGN CHOICE (log 14): that holds too where the instruction or the
interrupt entry just before has written them. -/
def fetch (s : State) : List Byte × State :=
  let r := readByte false s.pc s
  let more := fetchBytes (opcodeLength r.1 - 1) (s.pc + 1) r.2
  (r.1 :: more.1, more.2)

/-! ## Placing a program from outside (log 2) -/

/-- The product with RAM at one address, whatever its map said. -/
def ramAt (a : Word) (p : Product) : Product := { p with memMap := ⟨a, a, .ram⟩ :: p.memMap }

/-- Put a byte where a fetch of this address finds it: in PS[15:8] at 0078H, else in memory. An address that the
product's map gives to the environment becomes RAM, so that the byte is there. -/
def placeByte (a : Word) (v : Byte) (s : State) : State :=
  if a = mirrorAddr then s.withPs (s.ps.withHigh v)
  else
    match s.kindAt a with
    | .ram => s.withMem (s.mem.write a.toNat v)
    | .rom => s.withMem (s.mem.write a.toNat v)
    | .io => (s.withMem (s.mem.write a.toNat v)).withProduct (ramAt a s.product)
    | .absent => (s.withMem (s.mem.write a.toNat v)).withProduct (ramAt a s.product)

/-- Put bytes at consecutive addresses. -/
def placeBytes : List Byte → Word → State → State
  | [], _, s => s
  | v :: vs, a, s => placeBytes vs (a + 1) (placeByte a v s)

/-- The inputs with no reset asserted at the boundary the machine stands at. -/
def clearReset : List Boundary → List Boundary
  | [] => []
  | b :: bs => { b with reset := false } :: bs

end Sys2Proof.Machine
end

