-- ==== Sys2Proof/Machine/Arithmetic.lean ====
section
/-! DEFINITION. The meanings of the 62 operation instructions (spec/41_arithmetic.md). Each ends with `PC <- nextPC`;
byte operations write AL only (R204); H is written exactly by the byte additions and subtractions, left free by the
other users of the adder, and unchanged by the rest (R205). -/

namespace Sys2Proof.Machine

/-- AL and the flags N, Z, V, C, H from a byte sum or difference (R201, R202, R204). -/
def setAlSum (f : ByteSum) (s : State) : State := (s.withAl f.r).withPs (s.ps.arithByte f)

/-- A and the flags N, Z, V, C from a word sum or difference; H is free (R201, R202). -/
def setASum (f : WordSum) (s : State) : State :=
  withBit (fun h s1 => (s1.withA f.r).withPs (s1.ps.arithWord f h)) s

/-- `AL <- AL + m + C` (R207). -/
def addToAl (m : Byte) (s : State) : State := setAlSum (add8 s.al m s.ps.c) s

/-- `AL <- AL - m - C`, AL the minuend (R214). -/
def subFromAl (m : Byte) (s : State) : State := setAlSum (sub8 s.al m s.ps.c) s

/-- `Cmp8(x, y)` (R202): the flags of x - y, no result stored, H free. -/
def compareBytes (x y : Byte) (s : State) : State :=
  withBit (fun h s1 => s1.withPs (s1.ps.compareByte (sub8 x y false) h)) s

/-- `Cmp16(x, y)` (R202). -/
def compareWords (x y : Word) (s : State) : State :=
  withBit (fun h s1 => s1.withPs (s1.ps.arithWord (sub16 x y false) h)) s

/-- `Cmp8(AL, m)` (R223). -/
def compareAl (m : Byte) (s : State) : State := compareBytes s.al m s

/-- AL and the flags N, Z, V from a logical operation (R203, R204). -/
def setAlLogic (r : Byte) (s : State) : State := (s.withAl r).withPs (s.ps.logicByte r)

/-- A and the flags N, Z, V from a logical operation (R203). -/
def setALogic (r : Word) (s : State) : State := (s.withA r).withPs (s.ps.logicWord r)

/-- `AL <- AL and m` (R233). -/
def andAl (m : Byte) (s : State) : State := setAlLogic (s.al &&& m) s

/-- `AL <- AL or m` (R240). -/
def orAl (m : Byte) (s : State) : State := setAlLogic (s.al ||| m) s

/-- `AL <- AL xor m` (R247). -/
def xorAl (m : Byte) (s : State) : State := setAlLogic (s.al ^^^ m) s

/-- A and the flags N, Z of INCW A and DECW A; H is free (R255, R256). -/
def setACount (r : Word) (s : State) : State :=
  withBit (fun h s1 => (s1.withA r).withPs (s1.ps.countWord r h)) s

/-- INC Ri and DEC Ri: one read with the RMW signal, one write of the result, N, Z and V; H is free (R263, R264). -/
def countReg (a : Word) (f : Byte → Byte) (v : Byte → Bool) (s : State) : State :=
  let m := readByte true a s
  withBit (fun h s1 => s1.withPs (s1.ps.countByte (f m.1) (v m.1) h)) (writeByte a (f m.1) m.2)

/-- DIVU A (R262): T divided by A, both as unsigned words, quotient to A and remainder to T, Z = 0; with A = 0000H both
are free and Z = 1. -/
def divideT (s : State) : State :=
  if s.a = 0#16 then
    let q := drawWord s
    let r := drawWord q.2
    ((r.2.withA q.1).withT r.1).withPs { s.ps with z := true }
  else ((s.withA (s.t / s.a)).withT (s.t % s.a)).withPs { s.ps with z := false }

/-- AL and the flags N, Z, C of a rotation (R265, R266). -/
def setAlRotated (r : Byte × Bool) (s : State) : State := (s.withAl r.1).withPs (s.ps.rotate r)

/-- DAA outside Table 6.26-1 (R269): AL, N, Z, V and C are free; H and the rest are unchanged. -/
def adjustFreely (s : State) : State :=
  let al := drawByte s
  let n := drawBit al.2
  let z := drawBit n.2
  let v := drawBit z.2
  let c := drawBit v.2
  (c.2.withAl al.1).withPs { s.ps with n := n.1, z := z.1, v := v.1, c := c.1 }

/-- DAA (R267 to R269): the correction and the new carry come from Table 6.26-1; H is read and left unchanged. -/
def decimalAfterAdd (s : State) : State :=
  match daaCorrection s.ps.c s.ps.h s.al with
  | some (k, c) => (s.withAl (s.al + k)).withPs (s.ps.adjustAdd s.al k c)
  | none => adjustFreely s

/-- DAS (R270): the correction comes from Table 6.27-1; C and H are left unchanged. -/
def decimalAfterSub (s : State) : State :=
  let k := dasCorrection s.ps.c s.ps.h
  (s.withAl (s.al - k)).withPs (s.ps.adjustSub s.al k)

/-- MULU A (41_arithmetic R261). An unsigned 8 by 8 product; no flag is written. -/
def execMuluA (s : State) : Host.Outcome State Fault Refusal :=
  finish 1 (s.withA (BitVec.ofNat 16 (s.al.toNat * s.tl.toNat)))

/-- ROLC A (41_arithmetic R265). -/
def execRolcA (s : State) : Host.Outcome State Fault Refusal :=
  finish 1 (setAlRotated (rotateLeft s.al s.ps.c) s)

/-- RORC A (41_arithmetic R266). -/
def execRorcA (s : State) : Host.Outcome State Fault Refusal :=
  finish 1 (setAlRotated (rotateRight s.al s.ps.c) s)

/-- DIVU A (41_arithmetic R262). -/
def execDivuA (s : State) : Host.Outcome State Fault Refusal :=
  finish 1 (divideT s)

/-- CMP A (41_arithmetic R221). TL is the minuend; the carry is not subtracted. -/
def execCmpA (s : State) : Host.Outcome State Fault Refusal :=
  finish 1 (compareBytes s.tl s.al s)

/-- CMPW A (41_arithmetic R222). T is the minuend; the carry is not subtracted. -/
def execCmpwA (s : State) : Host.Outcome State Fault Refusal :=
  finish 1 (compareWords s.t s.a s)

/-- CMP A,#d8 (41_arithmetic R223). -/
def execCmpAImm (d8 : Byte) (s : State) : Host.Outcome State Fault Refusal :=
  finish 2 (compareAl d8 s)

/-- CMP A,dir (41_arithmetic R224). -/
def execCmpADir (dir : Byte) (s : State) : Host.Outcome State Fault Refusal :=
  finish 2 (withByte (dirAddr dir s) compareAl s)

/-- CMP A,@IX+off (41_arithmetic R226). -/
def execCmpAAtIx (off : Byte) (s : State) : Host.Outcome State Fault Refusal :=
  finish 2 (withByte (ixAddr off s) compareAl s)

/-- CMP A,@EP (41_arithmetic R225). -/
def execCmpAAtEp (s : State) : Host.Outcome State Fault Refusal :=
  finish 1 (withByte s.ep compareAl s)

/-- CMP A,Ri (41_arithmetic R227). -/
def execCmpAReg (i : Nat) (s : State) : Host.Outcome State Fault Refusal :=
  finish 1 (withByte (regAddr i s) compareAl s)

/-- ADDC A (41_arithmetic R213). -/
def execAddcA (s : State) : Host.Outcome State Fault Refusal :=
  finish 1 (addToAl s.tl s)

/-- ADDCW A (41_arithmetic R212). -/
def execAddcwA (s : State) : Host.Outcome State Fault Refusal :=
  finish 1 (setASum (add16 s.a s.t s.ps.c) s)

/-- ADDC A,#d8 (41_arithmetic R208). -/
def execAddcAImm (d8 : Byte) (s : State) : Host.Outcome State Fault Refusal :=
  finish 2 (addToAl d8 s)

/-- ADDC A,dir (41_arithmetic R209). -/
def execAddcADir (dir : Byte) (s : State) : Host.Outcome State Fault Refusal :=
  finish 2 (withByte (dirAddr dir s) addToAl s)

/-- ADDC A,@IX+off (41_arithmetic R210). -/
def execAddcAAtIx (off : Byte) (s : State) : Host.Outcome State Fault Refusal :=
  finish 2 (withByte (ixAddr off s) addToAl s)

/-- ADDC A,@EP (41_arithmetic R211). -/
def execAddcAAtEp (s : State) : Host.Outcome State Fault Refusal :=
  finish 1 (withByte s.ep addToAl s)

/-- ADDC A,Ri (41_arithmetic R207). -/
def execAddcAReg (i : Nat) (s : State) : Host.Outcome State Fault Refusal :=
  finish 1 (withByte (regAddr i s) addToAl s)

/-- SUBC A (41_arithmetic R220). TL is the minuend. -/
def execSubcA (s : State) : Host.Outcome State Fault Refusal :=
  finish 1 (setAlSum (sub8 s.tl s.al s.ps.c) s)

/-- SUBCW A (41_arithmetic R219). T is the minuend. -/
def execSubcwA (s : State) : Host.Outcome State Fault Refusal :=
  finish 1 (setASum (sub16 s.t s.a s.ps.c) s)

/-- SUBC A,#d8 (41_arithmetic R215). -/
def execSubcAImm (d8 : Byte) (s : State) : Host.Outcome State Fault Refusal :=
  finish 2 (subFromAl d8 s)

/-- SUBC A,dir (41_arithmetic R216). -/
def execSubcADir (dir : Byte) (s : State) : Host.Outcome State Fault Refusal :=
  finish 2 (withByte (dirAddr dir s) subFromAl s)

/-- SUBC A,@IX+off (41_arithmetic R217). -/
def execSubcAAtIx (off : Byte) (s : State) : Host.Outcome State Fault Refusal :=
  finish 2 (withByte (ixAddr off s) subFromAl s)

/-- SUBC A,@EP (41_arithmetic R218). -/
def execSubcAAtEp (s : State) : Host.Outcome State Fault Refusal :=
  finish 1 (withByte s.ep subFromAl s)

/-- SUBC A,Ri (41_arithmetic R214). -/
def execSubcAReg (i : Nat) (s : State) : Host.Outcome State Fault Refusal :=
  finish 1 (withByte (regAddr i s) subFromAl s)

/-- XOR A (41_arithmetic R246). -/
def execXorA (s : State) : Host.Outcome State Fault Refusal :=
  finish 1 (xorAl s.tl s)

/-- XORW A (41_arithmetic R252). -/
def execXorwA (s : State) : Host.Outcome State Fault Refusal :=
  finish 1 (setALogic (s.a ^^^ s.t) s)

/-- XOR A,#d8 (41_arithmetic R247). -/
def execXorAImm (d8 : Byte) (s : State) : Host.Outcome State Fault Refusal :=
  finish 2 (xorAl d8 s)

/-- XOR A,dir (41_arithmetic R248). -/
def execXorADir (dir : Byte) (s : State) : Host.Outcome State Fault Refusal :=
  finish 2 (withByte (dirAddr dir s) xorAl s)

/-- XOR A,@IX+off (41_arithmetic R250). -/
def execXorAAtIx (off : Byte) (s : State) : Host.Outcome State Fault Refusal :=
  finish 2 (withByte (ixAddr off s) xorAl s)

/-- XOR A,@EP (41_arithmetic R249). -/
def execXorAAtEp (s : State) : Host.Outcome State Fault Refusal :=
  finish 1 (withByte s.ep xorAl s)

/-- XOR A,Ri (41_arithmetic R251). -/
def execXorAReg (i : Nat) (s : State) : Host.Outcome State Fault Refusal :=
  finish 1 (withByte (regAddr i s) xorAl s)

/-- AND A (41_arithmetic R232). -/
def execAndA (s : State) : Host.Outcome State Fault Refusal :=
  finish 1 (andAl s.tl s)

/-- ANDW A (41_arithmetic R238). -/
def execAndwA (s : State) : Host.Outcome State Fault Refusal :=
  finish 1 (setALogic (s.a &&& s.t) s)

/-- AND A,#d8 (41_arithmetic R233). -/
def execAndAImm (d8 : Byte) (s : State) : Host.Outcome State Fault Refusal :=
  finish 2 (andAl d8 s)

/-- AND A,dir (41_arithmetic R234). -/
def execAndADir (dir : Byte) (s : State) : Host.Outcome State Fault Refusal :=
  finish 2 (withByte (dirAddr dir s) andAl s)

/-- AND A,@IX+off (41_arithmetic R236). -/
def execAndAAtIx (off : Byte) (s : State) : Host.Outcome State Fault Refusal :=
  finish 2 (withByte (ixAddr off s) andAl s)

/-- AND A,@EP (41_arithmetic R235). -/
def execAndAAtEp (s : State) : Host.Outcome State Fault Refusal :=
  finish 1 (withByte s.ep andAl s)

/-- AND A,Ri (41_arithmetic R237). -/
def execAndAReg (i : Nat) (s : State) : Host.Outcome State Fault Refusal :=
  finish 1 (withByte (regAddr i s) andAl s)

/-- OR A (41_arithmetic R239). -/
def execOrA (s : State) : Host.Outcome State Fault Refusal :=
  finish 1 (orAl s.tl s)

/-- ORW A (41_arithmetic R245). -/
def execOrwA (s : State) : Host.Outcome State Fault Refusal :=
  finish 1 (setALogic (s.a ||| s.t) s)

/-- OR A,#d8 (41_arithmetic R240). -/
def execOrAImm (d8 : Byte) (s : State) : Host.Outcome State Fault Refusal :=
  finish 2 (orAl d8 s)

/-- OR A,dir (41_arithmetic R241). -/
def execOrADir (dir : Byte) (s : State) : Host.Outcome State Fault Refusal :=
  finish 2 (withByte (dirAddr dir s) orAl s)

/-- OR A,@IX+off (41_arithmetic R243). -/
def execOrAAtIx (off : Byte) (s : State) : Host.Outcome State Fault Refusal :=
  finish 2 (withByte (ixAddr off s) orAl s)

/-- OR A,@EP (41_arithmetic R242). -/
def execOrAAtEp (s : State) : Host.Outcome State Fault Refusal :=
  finish 1 (withByte s.ep orAl s)

/-- OR A,Ri (41_arithmetic R244). -/
def execOrAReg (i : Nat) (s : State) : Host.Outcome State Fault Refusal :=
  finish 1 (withByte (regAddr i s) orAl s)

/-- DAA (41_arithmetic R267). -/
def execDaa (s : State) : Host.Outcome State Fault Refusal :=
  finish 1 (decimalAfterAdd s)

/-- DAS (41_arithmetic R270). -/
def execDas (s : State) : Host.Outcome State Fault Refusal :=
  finish 1 (decimalAfterSub s)

/-- CMP dir,#d8 (41_arithmetic R228). -/
def execCmpDirImm (dir : Byte) (d8 : Byte) (s : State) : Host.Outcome State Fault Refusal :=
  finish 3 (withByte (dirAddr dir s) (fun m => compareBytes m d8) s)

/-- CMP @IX+off,#d8 (41_arithmetic R230). -/
def execCmpAtIxImm (off : Byte) (d8 : Byte) (s : State) : Host.Outcome State Fault Refusal :=
  finish 3 (withByte (ixAddr off s) (fun m => compareBytes m d8) s)

/-- CMP @EP,#d8 (41_arithmetic R229). -/
def execCmpAtEpImm (d8 : Byte) (s : State) : Host.Outcome State Fault Refusal :=
  finish 2 (withByte s.ep (fun m => compareBytes m d8) s)

/-- CMP Ri,#d8 (41_arithmetic R231). -/
def execCmpRegImm (i : Nat) (d8 : Byte) (s : State) : Host.Outcome State Fault Refusal :=
  finish 2 (withByte (regAddr i s) (fun m => compareBytes m d8) s)

/-- INCW A (41_arithmetic R255). V and C are unchanged. -/
def execIncwA (s : State) : Host.Outcome State Fault Refusal :=
  finish 1 (setACount (s.a + 1) s)

/-- INCW SP (41_arithmetic R253). -/
def execIncwSp (s : State) : Host.Outcome State Fault Refusal :=
  finish 1 (s.withSp (s.sp + 1))

/-- INCW IX (41_arithmetic R259). -/
def execIncwIx (s : State) : Host.Outcome State Fault Refusal :=
  finish 1 (s.withIx (s.ix + 1))

/-- INCW EP (41_arithmetic R257). -/
def execIncwEp (s : State) : Host.Outcome State Fault Refusal :=
  finish 1 (s.withEp (s.ep + 1))

/-- INC Ri (41_arithmetic R263). Read-modify-write; V = 1 exactly when the old byte is 7FH. -/
def execIncReg (i : Nat) (s : State) : Host.Outcome State Fault Refusal :=
  finish 1 (countReg (regAddr i s) (fun m => m + 1) (fun m => m == 0x7F#8) s)

/-- DECW A (41_arithmetic R256). V and C are unchanged. -/
def execDecwA (s : State) : Host.Outcome State Fault Refusal :=
  finish 1 (setACount (s.a - 1) s)

/-- DECW SP (41_arithmetic R254). -/
def execDecwSp (s : State) : Host.Outcome State Fault Refusal :=
  finish 1 (s.withSp (s.sp - 1))

/-- DECW IX (41_arithmetic R260). -/
def execDecwIx (s : State) : Host.Outcome State Fault Refusal :=
  finish 1 (s.withIx (s.ix - 1))

/-- DECW EP (41_arithmetic R258). -/
def execDecwEp (s : State) : Host.Outcome State Fault Refusal :=
  finish 1 (s.withEp (s.ep - 1))

/-- DEC Ri (41_arithmetic R264). Read-modify-write; V = 1 exactly when the old byte is 80H. -/
def execDecReg (i : Nat) (s : State) : Host.Outcome State Fault Refusal :=
  finish 1 (countReg (regAddr i s) (fun m => m - 1) (fun m => m == 0x80#8) s)

end Sys2Proof.Machine
end

