-- ==== Sys2Proof/Machine/Branch.lean ====
section
/-! DEFINITION. The meanings of the 17 branch instructions (spec/42_branch.md). -/

namespace Sys2Proof.Machine

/-- A conditional branch of `n` bytes (R282): `if cond then PC <- RelTarget(rel) else PC <- nextPC`. -/
def branchIf (cond : Bool) (n : Nat) (rel : Byte) (s : State) : Host.Outcome State Fault Refusal :=
  .next (s.withPc (if cond then relTarget n rel s else s.nextPC n))

/-- BBC and BBS (R291): one plain read of the byte, `Z <- not m[b]`, and a branch when the bit has the value `want`. -/
def branchOnBit (want : Bool) (dir : Byte) (b : Nat) (rel : Byte) (s : State) : Host.Outcome State Fault Refusal :=
  let m := readByte false (dirAddr dir s) s
  branchIf (m.1.getLsbD b == want) 3 rel (m.2.withPs { s.ps with z := !m.1.getLsbD b })

/-- RET (42_branch R299). PS is not restored. -/
def execRet (s : State) : Host.Outcome State Fault Refusal :=
  .next ((pop16 s).2.withPc (pop16 s).1)

/-- JMP ext (42_branch R295). -/
def execJmpExt (ext : Word) (s : State) : Host.Outcome State Fault Refusal :=
  .next (s.withPc ext)

/-- RETI (42_branch R300). -/
def execReti (s : State) : Host.Outcome State Fault Refusal :=
  .next (returnFromInterrupt s)

/-- CALL ext (42_branch R296). -/
def execCallExt (ext : Word) (s : State) : Host.Outcome State Fault Refusal :=
  .next ((push16 (s.nextPC 3) s).withPc ext)

/-- BBC dir:b,rel (42_branch R292). -/
def execBbc (dir : Byte) (b : Nat) (rel : Byte) (s : State) : Host.Outcome State Fault Refusal :=
  branchOnBit false dir b rel s

/-- BBS dir:b,rel (42_branch R293). -/
def execBbs (dir : Byte) (b : Nat) (rel : Byte) (s : State) : Host.Outcome State Fault Refusal :=
  branchOnBit true dir b rel s

/-- JMP @A (42_branch R294). -/
def execJmpAtA (s : State) : Host.Outcome State Fault Refusal :=
  .next (s.withPc s.a)

/-- CALLV #vct (42_branch R297). The vector is read before the return address is written. -/
def execCallv (vct : Nat) (s : State) : Host.Outcome State Fault Refusal :=
  .next (withWord (callvAddr vct) (fun target s1 => (push16 (s.nextPC 1) s1).withPc target) s)

/-- XCHW A,PC (42_branch R298). Both assignments use the values before the instruction. -/
def execXchwAPc (s : State) : Host.Outcome State Fault Refusal :=
  .next ((s.withA (s.nextPC 1)).withPc s.a)

/-- BNC rel / BHS rel (42_branch R286). -/
def execBnc (rel : Byte) (s : State) : Host.Outcome State Fault Refusal :=
  branchIf (!s.ps.c) 2 rel s

/-- BC rel / BLO rel (42_branch R285). -/
def execBc (rel : Byte) (s : State) : Host.Outcome State Fault Refusal :=
  branchIf s.ps.c 2 rel s

/-- BP rel (42_branch R288). Taken when N = 0 (90_conflicts C7). -/
def execBp (rel : Byte) (s : State) : Host.Outcome State Fault Refusal :=
  branchIf (!s.ps.n) 2 rel s

/-- BN rel (42_branch R287). -/
def execBn (rel : Byte) (s : State) : Host.Outcome State Fault Refusal :=
  branchIf s.ps.n 2 rel s

/-- BNZ rel / BNE rel (42_branch R284). -/
def execBnz (rel : Byte) (s : State) : Host.Outcome State Fault Refusal :=
  branchIf (!s.ps.z) 2 rel s

/-- BZ rel / BEQ rel (42_branch R283). -/
def execBz (rel : Byte) (s : State) : Host.Outcome State Fault Refusal :=
  branchIf s.ps.z 2 rel s

/-- BGE rel (42_branch R290). The condition is V xor N = 0. -/
def execBge (rel : Byte) (s : State) : Host.Outcome State Fault Refusal :=
  branchIf (!(s.ps.v ^^ s.ps.n)) 2 rel s

/-- BLT rel (42_branch R289). The condition is V xor N = 1. -/
def execBlt (rel : Byte) (s : State) : Host.Outcome State Fault Refusal :=
  branchIf (s.ps.v ^^ s.ps.n) 2 rel s

end Sys2Proof.Machine
end

