-- ==== Sys2Proof/Machine/Other.lean ====
section
/-! DEFINITION. The meanings of the 9 other instructions (spec/43_other.md). Each is one byte long and ends with
`PC <- nextPC` (R320). -/

namespace Sys2Proof.Machine

/-- NOP (43_other R326). -/
def execNop (s : State) : Host.Outcome State Fault Refusal :=
  finish 1 s

/-- PUSHW A (43_other R321). -/
def execPushwA (s : State) : Host.Outcome State Fault Refusal :=
  finish 1 (push16 s.a s)

/-- PUSHW IX (43_other R323). -/
def execPushwIx (s : State) : Host.Outcome State Fault Refusal :=
  finish 1 (push16 s.ix s)

/-- POPW A (43_other R322). T and the flags are unchanged. -/
def execPopwA (s : State) : Host.Outcome State Fault Refusal :=
  finish 1 ((pop16 s).2.withA (pop16 s).1)

/-- POPW IX (43_other R324). -/
def execPopwIx (s : State) : Host.Outcome State Fault Refusal :=
  finish 1 ((pop16 s).2.withIx (pop16 s).1)

/-- CLRI (43_other R329). -/
def execClri (s : State) : Host.Outcome State Fault Refusal :=
  finish 1 (s.withPs { s.ps with i := false })

/-- CLRC (43_other R327). -/
def execClrc (s : State) : Host.Outcome State Fault Refusal :=
  finish 1 (s.withPs { s.ps with c := false })

/-- SETI (43_other R330). -/
def execSeti (s : State) : Host.Outcome State Fault Refusal :=
  finish 1 (s.withPs { s.ps with i := true })

/-- SETC (43_other R328). -/
def execSetc (s : State) : Host.Outcome State Fault Refusal :=
  finish 1 (s.withPs { s.ps with c := true })

end Sys2Proof.Machine
end

