-- ==== Sys2Proof/Machine/Transfer.lean ====
section
/-! DEFINITION. The meanings of the 48 transfer instructions (spec/40_transfer.md). Each ends with `PC <- nextPC`; the
order of the accesses of one instruction is the order of its rule (R140). -/

namespace Sys2Proof.Machine

/-- `LoadA8(v)` (R142): the byte transfer into A with the automatic copy of AL to TL; N and Z from the data. -/
def loadA8 (v : Byte) (s : State) : State := ((s.withTl s.al).withAl v).withPs (s.ps.nzByte v)

/-- `LoadA16(v)` (R142): the word transfer into A with the automatic copy of A to T; N and Z from the data. -/
def loadA16 (v : Word) (s : State) : State := ((s.withT s.a).withA v).withPs (s.ps.nzWord v)

/-- MOV A,#d8 (40_transfer R148). -/
def execMovAImm (d8 : Byte) (s : State) : Host.Outcome State Fault Refusal :=
  finish 2 (loadA8 d8 s)

/-- MOV A,dir (40_transfer R149). -/
def execMovADir (dir : Byte) (s : State) : Host.Outcome State Fault Refusal :=
  finish 2 (withByte (dirAddr dir s) loadA8 s)

/-- MOV A,@IX+off (40_transfer R150). -/
def execMovAAtIx (off : Byte) (s : State) : Host.Outcome State Fault Refusal :=
  finish 2 (withByte (ixAddr off s) loadA8 s)

/-- MOV A,@EP (40_transfer R153). -/
def execMovAAtEp (s : State) : Host.Outcome State Fault Refusal :=
  finish 1 (withByte s.ep loadA8 s)

/-- MOV A,Ri (40_transfer R154). -/
def execMovAReg (i : Nat) (s : State) : Host.Outcome State Fault Refusal :=
  finish 1 (withByte (regAddr i s) loadA8 s)

/-- SWAP (40_transfer R182). -/
def execSwap (s : State) : Host.Outcome State Fault Refusal :=
  finish 1 (s.withA (join s.al s.ah))

/-- XCH A,T (40_transfer R185). -/
def execXchAT (s : State) : Host.Outcome State Fault Refusal :=
  finish 1 ((s.withAl s.tl).withTl s.al)

/-- XCHW A,T (40_transfer R186). -/
def execXchwAT (s : State) : Host.Outcome State Fault Refusal :=
  finish 1 ((s.withA s.t).withT s.a)

/-- MOV dir,A (40_transfer R143). -/
def execMovDirA (dir : Byte) (s : State) : Host.Outcome State Fault Refusal :=
  finish 2 (writeByte (dirAddr dir s) s.al s)

/-- MOV @IX+off,A (40_transfer R144). -/
def execMovAtIxA (off : Byte) (s : State) : Host.Outcome State Fault Refusal :=
  finish 2 (writeByte (ixAddr off s) s.al s)

/-- MOV @EP,A (40_transfer R146). -/
def execMovAtEpA (s : State) : Host.Outcome State Fault Refusal :=
  finish 1 (writeByte s.ep s.al s)

/-- MOV Ri,A (40_transfer R147). -/
def execMovRegA (i : Nat) (s : State) : Host.Outcome State Fault Refusal :=
  finish 1 (writeByte (regAddr i s) s.al s)

/-- MOV A,ext (40_transfer R151). -/
def execMovAExt (ext : Word) (s : State) : Host.Outcome State Fault Refusal :=
  finish 3 (withByte ext loadA8 s)

/-- MOV ext,A (40_transfer R145). -/
def execMovExtA (ext : Word) (s : State) : Host.Outcome State Fault Refusal :=
  finish 3 (writeByte ext s.al s)

/-- MOVW A,PS (40_transfer R179). T is not written. -/
def execMovwAPs (s : State) : Host.Outcome State Fault Refusal :=
  finish 1 (s.withA s.ps.toWord)

/-- MOVW PS,A (40_transfer R180). All 16 bits of PS are written. -/
def execMovwPsA (s : State) : Host.Outcome State Fault Refusal :=
  finish 1 (s.withPs (Status.ofWord s.a))

/-- MOV @A,T (40_transfer R176). One byte, TL, is stored (90_conflicts C13). -/
def execMovAtAT (s : State) : Host.Outcome State Fault Refusal :=
  finish 1 (writeByte s.a s.tl s)

/-- MOVW @A,T (40_transfer R177). -/
def execMovwAtAT (s : State) : Host.Outcome State Fault Refusal :=
  finish 1 (writeWord s.a s.t s)

/-- MOV dir,#d8 (40_transfer R155). -/
def execMovDirImm (dir : Byte) (d8 : Byte) (s : State) : Host.Outcome State Fault Refusal :=
  finish 3 (writeByte (dirAddr dir s) d8 s)

/-- MOV @IX+off,#d8 (40_transfer R156). -/
def execMovAtIxImm (off : Byte) (d8 : Byte) (s : State) : Host.Outcome State Fault Refusal :=
  finish 3 (writeByte (ixAddr off s) d8 s)

/-- MOV @EP,#d8 (40_transfer R157). -/
def execMovAtEpImm (d8 : Byte) (s : State) : Host.Outcome State Fault Refusal :=
  finish 2 (writeByte s.ep d8 s)

/-- MOV Ri,#d8 (40_transfer R158). -/
def execMovRegImm (i : Nat) (d8 : Byte) (s : State) : Host.Outcome State Fault Refusal :=
  finish 2 (writeByte (regAddr i s) d8 s)

/-- MOV A,@A (40_transfer R152). The address is all of A before the instruction. -/
def execMovAAtA (s : State) : Host.Outcome State Fault Refusal :=
  finish 1 (withByte s.a loadA8 s)

/-- MOVW A,@A (40_transfer R168). Both bytes are read from the old A; T receives that address. -/
def execMovwAAtA (s : State) : Host.Outcome State Fault Refusal :=
  finish 1 (withWord s.a loadA16 s)

/-- CLRB dir:b (40_transfer R184). Read-modify-write of the whole byte (20_memory R77). -/
def execClrb (dir : Byte) (b : Nat) (s : State) : Host.Outcome State Fault Refusal :=
  finish 2 (modifyByte (dirAddr dir s) (fun v => v &&& ~~~(bitMask b)) s)

/-- SETB dir:b (40_transfer R183). Read-modify-write of the whole byte (20_memory R77). -/
def execSetb (dir : Byte) (b : Nat) (s : State) : Host.Outcome State Fault Refusal :=
  finish 2 (modifyByte (dirAddr dir s) (fun v => v ||| bitMask b) s)

/-- MOVW A,ext (40_transfer R167). -/
def execMovwAExt (ext : Word) (s : State) : Host.Outcome State Fault Refusal :=
  finish 3 (withWord ext loadA16 s)

/-- MOVW A,dir (40_transfer R165). -/
def execMovwADir (dir : Byte) (s : State) : Host.Outcome State Fault Refusal :=
  finish 2 (withWord (dirAddr dir s) loadA16 s)

/-- MOVW A,@IX+off (40_transfer R166). -/
def execMovwAAtIx (off : Byte) (s : State) : Host.Outcome State Fault Refusal :=
  finish 2 (withWord (ixAddr off s) loadA16 s)

/-- MOVW A,@EP (40_transfer R169). -/
def execMovwAAtEp (s : State) : Host.Outcome State Fault Refusal :=
  finish 1 (withWord s.ep loadA16 s)

/-- MOVW ext,A (40_transfer R161). -/
def execMovwExtA (ext : Word) (s : State) : Host.Outcome State Fault Refusal :=
  finish 3 (writeWord ext s.a s)

/-- MOVW dir,A (40_transfer R159). -/
def execMovwDirA (dir : Byte) (s : State) : Host.Outcome State Fault Refusal :=
  finish 2 (writeWord (dirAddr dir s) s.a s)

/-- MOVW @IX+off,A (40_transfer R160). -/
def execMovwAtIxA (off : Byte) (s : State) : Host.Outcome State Fault Refusal :=
  finish 2 (writeWord (ixAddr off s) s.a s)

/-- MOVW @EP,A (40_transfer R162). -/
def execMovwAtEpA (s : State) : Host.Outcome State Fault Refusal :=
  finish 1 (writeWord s.ep s.a s)

/-- MOVW SP,A (40_transfer R174). -/
def execMovwSpA (s : State) : Host.Outcome State Fault Refusal :=
  finish 1 (s.withSp s.a)

/-- MOVW IX,A (40_transfer R172). -/
def execMovwIxA (s : State) : Host.Outcome State Fault Refusal :=
  finish 1 (s.withIx s.a)

/-- MOVW EP,A (40_transfer R163). -/
def execMovwEpA (s : State) : Host.Outcome State Fault Refusal :=
  finish 1 (s.withEp s.a)

/-- MOVW A,#d16 (40_transfer R164). -/
def execMovwAImm (d16 : Word) (s : State) : Host.Outcome State Fault Refusal :=
  finish 3 (loadA16 d16 s)

/-- MOVW SP,#d16 (40_transfer R181). -/
def execMovwSpImm (d16 : Word) (s : State) : Host.Outcome State Fault Refusal :=
  finish 3 (s.withSp d16)

/-- MOVW IX,#d16 (40_transfer R178). -/
def execMovwIxImm (d16 : Word) (s : State) : Host.Outcome State Fault Refusal :=
  finish 3 (s.withIx d16)

/-- MOVW EP,#d16 (40_transfer R171). -/
def execMovwEpImm (d16 : Word) (s : State) : Host.Outcome State Fault Refusal :=
  finish 3 (s.withEp d16)

/-- MOVW A,PC (40_transfer R188). A receives the address of the next instruction. -/
def execMovwAPc (s : State) : Host.Outcome State Fault Refusal :=
  finish 1 (s.withA (s.nextPC 1))

/-- MOVW A,SP (40_transfer R175). -/
def execMovwASp (s : State) : Host.Outcome State Fault Refusal :=
  finish 1 (s.withA s.sp)

/-- MOVW A,IX (40_transfer R173). -/
def execMovwAIx (s : State) : Host.Outcome State Fault Refusal :=
  finish 1 (s.withA s.ix)

/-- MOVW A,EP (40_transfer R170). -/
def execMovwAEp (s : State) : Host.Outcome State Fault Refusal :=
  finish 1 (s.withA s.ep)

/-- XCHW A,SP (40_transfer R190). -/
def execXchwASp (s : State) : Host.Outcome State Fault Refusal :=
  finish 1 ((s.withA s.sp).withSp s.a)

/-- XCHW A,IX (40_transfer R189). -/
def execXchwAIx (s : State) : Host.Outcome State Fault Refusal :=
  finish 1 ((s.withA s.ix).withIx s.a)

/-- XCHW A,EP (40_transfer R187). -/
def execXchwAEp (s : State) : Host.Outcome State Fault Refusal :=
  finish 1 ((s.withA s.ep).withEp s.a)

end Sys2Proof.Machine
end

