-- ==== Sys2Proof/Machine/Dispatch.lean ====
section
/-! DEFINITION. The dispatch: one arm per instruction, each one direct call of its meaning. -/

namespace Sys2Proof.Machine

/-- What an instruction does in a state whose PC is its address. -/
def exec (i : Instr) (s : State) : Host.Outcome State Fault Refusal :=
  match i with
  -- Transfer instructions (40_transfer)
  | .movAImm d8 => Sys2Proof.Machine.execMovAImm d8 s
  | .movADir dir => Sys2Proof.Machine.execMovADir dir s
  | .movAAtIx off => Sys2Proof.Machine.execMovAAtIx off s
  | .movAAtEp => Sys2Proof.Machine.execMovAAtEp s
  | .movAReg r => Sys2Proof.Machine.execMovAReg r s
  | .swap => Sys2Proof.Machine.execSwap s
  | .xchAT => Sys2Proof.Machine.execXchAT s
  | .xchwAT => Sys2Proof.Machine.execXchwAT s
  | .movDirA dir => Sys2Proof.Machine.execMovDirA dir s
  | .movAtIxA off => Sys2Proof.Machine.execMovAtIxA off s
  | .movAtEpA => Sys2Proof.Machine.execMovAtEpA s
  | .movRegA r => Sys2Proof.Machine.execMovRegA r s
  | .movAExt ext => Sys2Proof.Machine.execMovAExt ext s
  | .movExtA ext => Sys2Proof.Machine.execMovExtA ext s
  | .movwAPs => Sys2Proof.Machine.execMovwAPs s
  | .movwPsA => Sys2Proof.Machine.execMovwPsA s
  | .movAtAT => Sys2Proof.Machine.execMovAtAT s
  | .movwAtAT => Sys2Proof.Machine.execMovwAtAT s
  | .movDirImm dir d8 => Sys2Proof.Machine.execMovDirImm dir d8 s
  | .movAtIxImm off d8 => Sys2Proof.Machine.execMovAtIxImm off d8 s
  | .movAtEpImm d8 => Sys2Proof.Machine.execMovAtEpImm d8 s
  | .movRegImm r d8 => Sys2Proof.Machine.execMovRegImm r d8 s
  | .movAAtA => Sys2Proof.Machine.execMovAAtA s
  | .movwAAtA => Sys2Proof.Machine.execMovwAAtA s
  | .clrb dir b => Sys2Proof.Machine.execClrb dir b s
  | .setb dir b => Sys2Proof.Machine.execSetb dir b s
  | .movwAExt ext => Sys2Proof.Machine.execMovwAExt ext s
  | .movwADir dir => Sys2Proof.Machine.execMovwADir dir s
  | .movwAAtIx off => Sys2Proof.Machine.execMovwAAtIx off s
  | .movwAAtEp => Sys2Proof.Machine.execMovwAAtEp s
  | .movwExtA ext => Sys2Proof.Machine.execMovwExtA ext s
  | .movwDirA dir => Sys2Proof.Machine.execMovwDirA dir s
  | .movwAtIxA off => Sys2Proof.Machine.execMovwAtIxA off s
  | .movwAtEpA => Sys2Proof.Machine.execMovwAtEpA s
  | .movwSpA => Sys2Proof.Machine.execMovwSpA s
  | .movwIxA => Sys2Proof.Machine.execMovwIxA s
  | .movwEpA => Sys2Proof.Machine.execMovwEpA s
  | .movwAImm d16 => Sys2Proof.Machine.execMovwAImm d16 s
  | .movwSpImm d16 => Sys2Proof.Machine.execMovwSpImm d16 s
  | .movwIxImm d16 => Sys2Proof.Machine.execMovwIxImm d16 s
  | .movwEpImm d16 => Sys2Proof.Machine.execMovwEpImm d16 s
  | .movwAPc => Sys2Proof.Machine.execMovwAPc s
  | .movwASp => Sys2Proof.Machine.execMovwASp s
  | .movwAIx => Sys2Proof.Machine.execMovwAIx s
  | .movwAEp => Sys2Proof.Machine.execMovwAEp s
  | .xchwASp => Sys2Proof.Machine.execXchwASp s
  | .xchwAIx => Sys2Proof.Machine.execXchwAIx s
  | .xchwAEp => Sys2Proof.Machine.execXchwAEp s
  -- Operation instructions (41_arithmetic)
  | .muluA => Sys2Proof.Machine.execMuluA s
  | .rolcA => Sys2Proof.Machine.execRolcA s
  | .rorcA => Sys2Proof.Machine.execRorcA s
  | .divuA => Sys2Proof.Machine.execDivuA s
  | .cmpA => Sys2Proof.Machine.execCmpA s
  | .cmpwA => Sys2Proof.Machine.execCmpwA s
  | .cmpAImm d8 => Sys2Proof.Machine.execCmpAImm d8 s
  | .cmpADir dir => Sys2Proof.Machine.execCmpADir dir s
  | .cmpAAtIx off => Sys2Proof.Machine.execCmpAAtIx off s
  | .cmpAAtEp => Sys2Proof.Machine.execCmpAAtEp s
  | .cmpAReg r => Sys2Proof.Machine.execCmpAReg r s
  | .addcA => Sys2Proof.Machine.execAddcA s
  | .addcwA => Sys2Proof.Machine.execAddcwA s
  | .addcAImm d8 => Sys2Proof.Machine.execAddcAImm d8 s
  | .addcADir dir => Sys2Proof.Machine.execAddcADir dir s
  | .addcAAtIx off => Sys2Proof.Machine.execAddcAAtIx off s
  | .addcAAtEp => Sys2Proof.Machine.execAddcAAtEp s
  | .addcAReg r => Sys2Proof.Machine.execAddcAReg r s
  | .subcA => Sys2Proof.Machine.execSubcA s
  | .subcwA => Sys2Proof.Machine.execSubcwA s
  | .subcAImm d8 => Sys2Proof.Machine.execSubcAImm d8 s
  | .subcADir dir => Sys2Proof.Machine.execSubcADir dir s
  | .subcAAtIx off => Sys2Proof.Machine.execSubcAAtIx off s
  | .subcAAtEp => Sys2Proof.Machine.execSubcAAtEp s
  | .subcAReg r => Sys2Proof.Machine.execSubcAReg r s
  | .xorA => Sys2Proof.Machine.execXorA s
  | .xorwA => Sys2Proof.Machine.execXorwA s
  | .xorAImm d8 => Sys2Proof.Machine.execXorAImm d8 s
  | .xorADir dir => Sys2Proof.Machine.execXorADir dir s
  | .xorAAtIx off => Sys2Proof.Machine.execXorAAtIx off s
  | .xorAAtEp => Sys2Proof.Machine.execXorAAtEp s
  | .xorAReg r => Sys2Proof.Machine.execXorAReg r s
  | .andA => Sys2Proof.Machine.execAndA s
  | .andwA => Sys2Proof.Machine.execAndwA s
  | .andAImm d8 => Sys2Proof.Machine.execAndAImm d8 s
  | .andADir dir => Sys2Proof.Machine.execAndADir dir s
  | .andAAtIx off => Sys2Proof.Machine.execAndAAtIx off s
  | .andAAtEp => Sys2Proof.Machine.execAndAAtEp s
  | .andAReg r => Sys2Proof.Machine.execAndAReg r s
  | .orA => Sys2Proof.Machine.execOrA s
  | .orwA => Sys2Proof.Machine.execOrwA s
  | .orAImm d8 => Sys2Proof.Machine.execOrAImm d8 s
  | .orADir dir => Sys2Proof.Machine.execOrADir dir s
  | .orAAtIx off => Sys2Proof.Machine.execOrAAtIx off s
  | .orAAtEp => Sys2Proof.Machine.execOrAAtEp s
  | .orAReg r => Sys2Proof.Machine.execOrAReg r s
  | .daa => Sys2Proof.Machine.execDaa s
  | .das => Sys2Proof.Machine.execDas s
  | .cmpDirImm dir d8 => Sys2Proof.Machine.execCmpDirImm dir d8 s
  | .cmpAtIxImm off d8 => Sys2Proof.Machine.execCmpAtIxImm off d8 s
  | .cmpAtEpImm d8 => Sys2Proof.Machine.execCmpAtEpImm d8 s
  | .cmpRegImm r d8 => Sys2Proof.Machine.execCmpRegImm r d8 s
  | .incwA => Sys2Proof.Machine.execIncwA s
  | .incwSp => Sys2Proof.Machine.execIncwSp s
  | .incwIx => Sys2Proof.Machine.execIncwIx s
  | .incwEp => Sys2Proof.Machine.execIncwEp s
  | .incReg r => Sys2Proof.Machine.execIncReg r s
  | .decwA => Sys2Proof.Machine.execDecwA s
  | .decwSp => Sys2Proof.Machine.execDecwSp s
  | .decwIx => Sys2Proof.Machine.execDecwIx s
  | .decwEp => Sys2Proof.Machine.execDecwEp s
  | .decReg r => Sys2Proof.Machine.execDecReg r s
  -- Branch instructions (42_branch)
  | .ret => Sys2Proof.Machine.execRet s
  | .jmpExt ext => Sys2Proof.Machine.execJmpExt ext s
  | .reti => Sys2Proof.Machine.execReti s
  | .callExt ext => Sys2Proof.Machine.execCallExt ext s
  | .bbc dir b rel => Sys2Proof.Machine.execBbc dir b rel s
  | .bbs dir b rel => Sys2Proof.Machine.execBbs dir b rel s
  | .jmpAtA => Sys2Proof.Machine.execJmpAtA s
  | .callv vct => Sys2Proof.Machine.execCallv vct s
  | .xchwAPc => Sys2Proof.Machine.execXchwAPc s
  | .bnc rel => Sys2Proof.Machine.execBnc rel s
  | .bc rel => Sys2Proof.Machine.execBc rel s
  | .bp rel => Sys2Proof.Machine.execBp rel s
  | .bn rel => Sys2Proof.Machine.execBn rel s
  | .bnz rel => Sys2Proof.Machine.execBnz rel s
  | .bz rel => Sys2Proof.Machine.execBz rel s
  | .bge rel => Sys2Proof.Machine.execBge rel s
  | .blt rel => Sys2Proof.Machine.execBlt rel s
  -- Other instructions (43_other)
  | .nop => Sys2Proof.Machine.execNop s
  | .pushwA => Sys2Proof.Machine.execPushwA s
  | .pushwIx => Sys2Proof.Machine.execPushwIx s
  | .popwA => Sys2Proof.Machine.execPopwA s
  | .popwIx => Sys2Proof.Machine.execPopwIx s
  | .clri => Sys2Proof.Machine.execClri s
  | .clrc => Sys2Proof.Machine.execClrc s
  | .seti => Sys2Proof.Machine.execSeti s
  | .setc => Sys2Proof.Machine.execSetc s

end Sys2Proof.Machine
end

