-- ==== Sys2Proof/Machine/Step.lean ====
section
/-! DEFINITION. One step of the machine (spec/60_exceptions.md R367). -/

namespace Sys2Proof.Machine

/-- One step (R367). Reset asserted at the boundary the machine stands at runs the reset sequence. Otherwise the
instruction at PC is fetched, decoded and executed, and the request presented at the boundary that ends it is sampled.
Each step moves on to the next boundary of the inputs. A first byte that no instruction has stops the model (R122). -/
def step (s : State) : Host.Outcome State Fault Refusal :=
  if s.boundary.reset then .next (resetSequence (s.withInputs s.inputs.tail))
  else
    let f := fetch (s.withInputs s.inputs.tail)
    match decode f.1 with
    | .error _ => .refused (.undefinedOpcode (s.byteAt s.pc))
    | .ok (i, _) =>
      match exec i f.2 with
      | .next t => .next (sampleInterrupt t)
      | .fault r => .fault r
      | .refused r => .refused r

/-- The state with the instruction of a table row stored where the next step fetches it: its bytes from PC on, no reset
asserted at the boundary the machine stands at (log 2). -/
def State.withFetchWord (s : State) (nbits w : Nat) : State :=
  (placeBytes (tableBytes nbits w) s.pc s).withInputs (clearReset s.inputs)

end Sys2Proof.Machine
end

