-- ==== Sys2Proof/Safety.lean ====
section
/-! DEFINITION. The terms that claims about runs use: what a state must satisfy, which addresses an instruction reads
and stores to, which registers and flags it writes, and when a write runs ahead of the fetch. -/

namespace Sys2Proof.Machine

/-! ## Addresses -/

/-- A read of this address is answered by the machine itself: 0078H, RAM or ROM (20_memory R62). -/
def State.readsInside (s : State) (a : Word) : Bool :=
  a == mirrorAddr || s.kindAt a == .ram || s.kindAt a == .rom

/-- A write of this address is kept by the machine itself: 0078H or RAM (20_memory R63). -/
def State.storesInside (s : State) (a : Word) : Bool := a == mirrorAddr || s.kindAt a == .ram

/-- The word that a word read of an address returns now (20_memory R62). -/
def State.wordAt (s : State) (a : Word) : Word := (readWord a s).1

/-! ## The invariant -/

/-- Every listed cell of memory stands at an address that the product's map gives to RAM or ROM (decision D6). -/
def State.backed (s : State) : Bool :=
  s.mem.all (fun cell => s.kindAt (BitVec.ofNat 16 cell.1) == .ram || s.kindAt (BitVec.ofNat 16 cell.1) == .rom)

/-- What every step keeps: memory has its canonical form, holds no cell behind 0078H (20_memory R79), and holds cells
only where the product has RAM or ROM. -/
def State.inv (s : State) : Bool := s.mem.wf && s.backed

/-- What the source says of every product's map (92_eei_decisions section 2): the register banks are RAM, the vector
tables are readable memory, I/O lies below the data area and the data area below the program area. -/
def Product.legal (p : Product) : Prop :=
  (∀ a : Word, 0x0100#16 ≤ a → a ≤ 0x01FF#16 → kindIn p.memMap a = .ram) ∧
  (∀ a : Word, 0xFFC0#16 ≤ a → kindIn p.memMap a = .ram ∨ kindIn p.memMap a = .rom) ∧
  (∀ a b : Word, kindIn p.memMap a = .io → kindIn p.memMap b = .ram → a < b) ∧
  (∀ a b : Word, kindIn p.memMap a = .ram → kindIn p.memMap b = .rom → a < b)

/-! ## What an instruction touches -/

/-- The addresses an instruction stores to, computed in the state before it (the Operation entry of its rule; 20_memory
R76). -/
def storeAddrs (i : Instr) (s : State) : List Word :=
  match i with
  | .movAImm _ | .movADir _ | .movAAtIx _ | .movAAtEp | .movAReg _ | .swap | .xchAT | .xchwAT | .movAExt _
  | .movwAPs | .movwPsA | .movAAtA | .movwAAtA | .movwAExt _ | .movwADir _ | .movwAAtIx _ | .movwAAtEp | .movwSpA
  | .movwIxA | .movwEpA | .movwAImm _ | .movwSpImm _ | .movwIxImm _ | .movwEpImm _ | .movwAPc | .movwASp | .movwAIx
  | .movwAEp | .xchwASp | .xchwAIx | .xchwAEp => []
  | .movDirA dir | .movDirImm dir _ | .clrb dir _ | .setb dir _ => [dirAddr dir s]
  | .movAtIxA off | .movAtIxImm off _ => [ixAddr off s]
  | .movAtEpA | .movAtEpImm _ => [s.ep]
  | .movRegA i | .movRegImm i _ => [regAddr i s]
  | .movExtA ext => [ext]
  | .movAtAT => [s.a]
  | .movwAtAT => [s.a, s.a + 1]
  | .movwExtA ext => [ext, ext + 1]
  | .movwDirA dir => [dirAddr dir s, dirAddr dir s + 1]
  | .movwAtIxA off => [ixAddr off s, ixAddr off s + 1]
  | .movwAtEpA => [s.ep, s.ep + 1]
  | .muluA | .rolcA | .rorcA | .divuA | .cmpA | .cmpwA | .cmpAImm _ | .cmpADir _ | .cmpAAtIx _ | .cmpAAtEp
  | .cmpAReg _ | .addcA | .addcwA | .addcAImm _ | .addcADir _ | .addcAAtIx _ | .addcAAtEp | .addcAReg _ | .subcA
  | .subcwA | .subcAImm _ | .subcADir _ | .subcAAtIx _ | .subcAAtEp | .subcAReg _ | .xorA | .xorwA | .xorAImm _
  | .xorADir _ | .xorAAtIx _ | .xorAAtEp | .xorAReg _ | .andA | .andwA | .andAImm _ | .andADir _ | .andAAtIx _
  | .andAAtEp | .andAReg _ | .orA | .orwA | .orAImm _ | .orADir _ | .orAAtIx _ | .orAAtEp | .orAReg _ | .daa | .das
  | .cmpDirImm _ _ | .cmpAtIxImm _ _ | .cmpAtEpImm _ | .cmpRegImm _ _ | .incwA | .incwSp | .incwIx | .incwEp
  | .decwA | .decwSp | .decwIx | .decwEp => []
  | .incReg i | .decReg i => [regAddr i s]
  | .ret | .jmpExt _ | .reti | .bbc _ _ _ | .bbs _ _ _ | .jmpAtA | .xchwAPc | .bnc _ | .bc _ | .bp _ | .bn _
  | .bnz _ | .bz _ | .bge _ | .blt _ => []
  | .callExt _ | .callv _ => [s.sp - 1, s.sp - 2]
  | .nop | .popwA | .popwIx | .clri | .clrc | .seti | .setc => []
  | .pushwA | .pushwIx => [s.sp - 1, s.sp - 2]

/-- The addresses an instruction reads data from, computed in the state before it (20_memory R76). -/
def loadAddrs (i : Instr) (s : State) : List Word :=
  match i with
  | .movAImm _ | .swap | .xchAT | .xchwAT | .movDirA _ | .movAtIxA _ | .movAtEpA | .movRegA _ | .movExtA _
  | .movwAPs | .movwPsA | .movAtAT | .movwAtAT | .movDirImm _ _ | .movAtIxImm _ _ | .movAtEpImm _ | .movRegImm _ _
  | .movwExtA _ | .movwDirA _ | .movwAtIxA _ | .movwAtEpA | .movwSpA | .movwIxA | .movwEpA | .movwAImm _
  | .movwSpImm _ | .movwIxImm _ | .movwEpImm _ | .movwAPc | .movwASp | .movwAIx | .movwAEp | .xchwASp | .xchwAIx
  | .xchwAEp => []
  | .movADir dir | .clrb dir _ | .setb dir _ => [dirAddr dir s]
  | .movAAtIx off => [ixAddr off s]
  | .movAAtEp => [s.ep]
  | .movAReg i => [regAddr i s]
  | .movAExt ext => [ext]
  | .movAAtA => [s.a]
  | .movwAAtA => [s.a, s.a + 1]
  | .movwAExt ext => [ext, ext + 1]
  | .movwADir dir => [dirAddr dir s, dirAddr dir s + 1]
  | .movwAAtIx off => [ixAddr off s, ixAddr off s + 1]
  | .movwAAtEp => [s.ep, s.ep + 1]
  | .muluA | .rolcA | .rorcA | .divuA | .cmpA | .cmpwA | .cmpAImm _ | .addcA | .addcwA | .addcAImm _ | .subcA
  | .subcwA | .subcAImm _ | .xorA | .xorwA | .xorAImm _ | .andA | .andwA | .andAImm _ | .orA | .orwA | .orAImm _
  | .daa | .das | .incwA | .incwSp | .incwIx | .incwEp | .decwA | .decwSp | .decwIx | .decwEp => []
  | .cmpADir dir | .addcADir dir | .subcADir dir | .xorADir dir | .andADir dir | .orADir dir
  | .cmpDirImm dir _ => [dirAddr dir s]
  | .cmpAAtIx off | .addcAAtIx off | .subcAAtIx off | .xorAAtIx off | .andAAtIx off | .orAAtIx off
  | .cmpAtIxImm off _ => [ixAddr off s]
  | .cmpAAtEp | .addcAAtEp | .subcAAtEp | .xorAAtEp | .andAAtEp | .orAAtEp | .cmpAtEpImm _ => [s.ep]
  | .cmpAReg i | .addcAReg i | .subcAReg i | .xorAReg i | .andAReg i | .orAReg i | .cmpRegImm i _ | .incReg i
  | .decReg i => [regAddr i s]
  | .ret => [s.sp, s.sp + 1]
  | .jmpExt _ | .callExt _ | .jmpAtA | .xchwAPc | .bnc _ | .bc _ | .bp _ | .bn _ | .bnz _ | .bz _ | .bge _
  | .blt _ => []
  | .reti => [s.sp, s.sp + 1, s.sp + 2, s.sp + 2 + 1]
  | .bbc dir _ _ | .bbs dir _ _ => [dirAddr dir s]
  | .callv vct => [callvAddr vct, callvAddr vct + 1]
  | .nop | .pushwA | .pushwIx | .clri | .clrc | .seti | .setc => []
  | .popwA | .popwIx => [s.sp, s.sp + 1]

/-- The halves of A and T, the other registers but PC, and the fields of PS (10_state R20, R28). -/
inductive Field where
  | ah | al | th | tl | ix | ep | sp | rp | dp | h | i | il | n | z | v | c
deriving DecidableEq, Repr

/-- The value of a field as a number. -/
def State.field (s : State) : Field → Nat
  | .ah => s.ah.toNat
  | .al => s.al.toNat
  | .th => s.th.toNat
  | .tl => s.tl.toNat
  | .ix => s.ix.toNat
  | .ep => s.ep.toNat
  | .sp => s.sp.toNat
  | .rp => s.ps.rp.toNat
  | .dp => s.ps.dp.toNat
  | .h => s.ps.h.toNat
  | .i => s.ps.i.toNat
  | .il => s.ps.il.toNat
  | .n => s.ps.n.toNat
  | .z => s.ps.z.toNat
  | .v => s.ps.v.toNat
  | .c => s.ps.c.toNat

/-- The fields an instruction writes, by the TL, TH, AH columns and the flag entries of its rule (40_transfer R141,
41_arithmetic R271, 42_branch R302, 43_other R332). A store to 0078H writes RP and DP besides (20_memory R79). -/
def writtenFields : Instr → List Field
  | .movAImm _ | .movADir _ | .movAAtIx _ | .movAAtEp | .movAReg _ | .movAExt _ | .movAAtA => [.tl, .al, .n, .z]
  | .swap | .movwAPs | .movwAPc | .movwASp | .movwAIx | .movwAEp => [.ah, .al]
  | .xchAT => [.al, .tl]
  | .xchwAT => [.ah, .al, .th, .tl]
  | .movDirA _ | .movAtIxA _ | .movAtEpA | .movRegA _ | .movExtA _ | .movAtAT | .movwAtAT | .movDirImm _ _
  | .movAtIxImm _ _ | .movAtEpImm _ | .movRegImm _ _ | .clrb _ _ | .setb _ _ | .movwExtA _ | .movwDirA _
  | .movwAtIxA _ | .movwAtEpA => []
  | .movwPsA => [.rp, .dp, .h, .i, .il, .n, .z, .v, .c]
  | .movwAAtA | .movwAExt _ | .movwADir _ | .movwAAtIx _ | .movwAAtEp | .movwAImm _ => [.th, .tl, .ah, .al, .n, .z]
  | .movwSpA | .movwSpImm _ => [.sp]
  | .movwIxA | .movwIxImm _ => [.ix]
  | .movwEpA | .movwEpImm _ => [.ep]
  | .xchwASp => [.ah, .al, .sp]
  | .xchwAIx => [.ah, .al, .ix]
  | .xchwAEp => [.ah, .al, .ep]
  | .muluA => [.ah, .al]
  | .rolcA | .rorcA => [.al, .n, .z, .c]
  | .divuA => [.ah, .al, .th, .tl, .z]
  | .cmpA | .cmpwA | .cmpAImm _ | .cmpADir _ | .cmpAAtIx _ | .cmpAAtEp | .cmpAReg _ | .cmpDirImm _ _
  | .cmpAtIxImm _ _ | .cmpAtEpImm _ | .cmpRegImm _ _ => [.n, .z, .v, .c, .h]
  | .addcA | .addcAImm _ | .addcADir _ | .addcAAtIx _ | .addcAAtEp | .addcAReg _ | .subcA | .subcAImm _
  | .subcADir _ | .subcAAtIx _ | .subcAAtEp | .subcAReg _ => [.al, .n, .z, .v, .c, .h]
  | .addcwA | .subcwA => [.ah, .al, .n, .z, .v, .c, .h]
  | .xorA | .xorAImm _ | .xorADir _ | .xorAAtIx _ | .xorAAtEp | .xorAReg _ | .andA | .andAImm _ | .andADir _
  | .andAAtIx _ | .andAAtEp | .andAReg _ | .orA | .orAImm _ | .orADir _ | .orAAtIx _ | .orAAtEp
  | .orAReg _ | .das => [.al, .n, .z, .v]
  | .xorwA | .andwA | .orwA => [.ah, .al, .n, .z, .v]
  | .daa => [.al, .n, .z, .v, .c]
  | .incwA | .decwA => [.ah, .al, .n, .z, .h]
  | .incwSp | .decwSp => [.sp]
  | .incwIx | .decwIx => [.ix]
  | .incwEp | .decwEp => [.ep]
  | .incReg _ | .decReg _ => [.n, .z, .v, .h]
  | .ret | .callExt _ | .callv _ => [.sp]
  | .jmpExt _ | .jmpAtA | .bnc _ | .bc _ | .bp _ | .bn _ | .bnz _ | .bz _ | .bge _ | .blt _ => []
  | .reti => [.sp, .rp, .dp, .h, .i, .il, .n, .z, .v, .c]
  | .bbc _ _ _ | .bbs _ _ _ => [.z]
  | .xchwAPc => [.ah, .al]
  | .nop => []
  | .pushwA | .pushwIx => [.sp]
  | .popwA => [.sp, .ah, .al]
  | .popwIx => [.sp, .ix]
  | .clri | .seti => [.i]
  | .clrc | .setc => [.c]

/-- The instruction assigns PC a value of its own: it is one of the branch group (42_branch R280). -/
def isBranch : Instr → Bool
  | .bz _ | .bnz _ | .bc _ | .bnc _ | .bn _ | .bp _ | .blt _ | .bge _ | .bbc _ _ _ | .bbs _ _ _ => true
  | .jmpAtA | .jmpExt _ | .callExt _ | .callv _ | .xchwAPc | .ret | .reti => true
  | .movAImm _ | .movADir _ | .movAAtIx _ | .movAAtEp | .movAReg _ | .swap | .xchAT | .xchwAT | .movDirA _
  | .movAtIxA _ | .movAtEpA | .movRegA _ | .movAExt _ | .movExtA _ | .movwAPs | .movwPsA | .movAtAT | .movwAtAT
  | .movDirImm _ _ | .movAtIxImm _ _ | .movAtEpImm _ | .movRegImm _ _ | .movAAtA | .movwAAtA | .clrb _ _
  | .setb _ _ | .movwAExt _ | .movwADir _ | .movwAAtIx _ | .movwAAtEp | .movwExtA _ | .movwDirA _ | .movwAtIxA _
  | .movwAtEpA | .movwSpA | .movwIxA | .movwEpA | .movwAImm _ | .movwSpImm _ | .movwIxImm _ | .movwEpImm _
  | .movwAPc | .movwASp | .movwAIx | .movwAEp | .xchwASp | .xchwAIx | .xchwAEp | .muluA | .rolcA | .rorcA
  | .divuA | .cmpA | .cmpwA | .cmpAImm _ | .cmpADir _ | .cmpAAtIx _ | .cmpAAtEp | .cmpAReg _ | .addcA | .addcwA
  | .addcAImm _ | .addcADir _ | .addcAAtIx _ | .addcAAtEp | .addcAReg _ | .subcA | .subcwA | .subcAImm _
  | .subcADir _ | .subcAAtIx _ | .subcAAtEp | .subcAReg _ | .xorA | .xorwA | .xorAImm _ | .xorADir _
  | .xorAAtIx _ | .xorAAtEp | .xorAReg _ | .andA | .andwA | .andAImm _ | .andADir _ | .andAAtIx _ | .andAAtEp
  | .andAReg _ | .orA | .orwA | .orAImm _ | .orADir _ | .orAAtIx _ | .orAAtEp | .orAReg _ | .daa | .das
  | .cmpDirImm _ _ | .cmpAtIxImm _ _ | .cmpAtEpImm _ | .cmpRegImm _ _ | .incwA | .incwSp | .incwIx | .incwEp
  | .incReg _ | .decwA | .decwSp | .decwIx | .decwEp | .decReg _ | .nop | .pushwA | .pushwIx | .popwA | .popwIx
  | .clri | .clrc | .seti | .setc => false

/-! ## Operand forms shared by whole families -/

/-- The five `<ea>` forms of the byte operations (41_arithmetic R200). -/
inductive ByteSource where
  | reg (i : Nat)
  | imm (d8 : Byte)
  | dir (dir : Byte)
  | atIx (off : Byte)
  | atEp

/-- The second operand `m` of a form (41_arithmetic R200): the byte a plain read of its address returns, or `d8`. -/
def ByteSource.value (m : ByteSource) (s : State) : Byte :=
  match m with
  | .reg i => s.byteAt (regAddr i s)
  | .imm d8 => d8
  | .dir d => s.byteAt (dirAddr d s)
  | .atIx off => s.byteAt (ixAddr off s)
  | .atEp => s.byteAt s.ep

def ByteSource.addc : ByteSource → Instr
  | .reg i => .addcAReg i
  | .imm d8 => .addcAImm d8
  | .dir d => .addcADir d
  | .atIx off => .addcAAtIx off
  | .atEp => .addcAAtEp

def ByteSource.subc : ByteSource → Instr
  | .reg i => .subcAReg i
  | .imm d8 => .subcAImm d8
  | .dir d => .subcADir d
  | .atIx off => .subcAAtIx off
  | .atEp => .subcAAtEp

def ByteSource.cmp : ByteSource → Instr
  | .reg i => .cmpAReg i
  | .imm d8 => .cmpAImm d8
  | .dir d => .cmpADir d
  | .atIx off => .cmpAAtIx off
  | .atEp => .cmpAAtEp

def ByteSource.and : ByteSource → Instr
  | .reg i => .andAReg i
  | .imm d8 => .andAImm d8
  | .dir d => .andADir d
  | .atIx off => .andAAtIx off
  | .atEp => .andAAtEp

def ByteSource.or : ByteSource → Instr
  | .reg i => .orAReg i
  | .imm d8 => .orAImm d8
  | .dir d => .orADir d
  | .atIx off => .orAAtIx off
  | .atEp => .orAAtEp

def ByteSource.xor : ByteSource → Instr
  | .reg i => .xorAReg i
  | .imm d8 => .xorAImm d8
  | .dir d => .xorADir d
  | .atIx off => .xorAAtIx off
  | .atEp => .xorAAtEp

/-! ## Writes that run ahead of the fetch -/

/-- The instruction stores to one of the three bytes after it, `nextPC` to `nextPC + 2`, where the hardware may already
hold the old bytes (20_memory R83, 70_reset R388, decision D8): outside what the spec claims (log 14). -/
def storesAhead (i : Instr) (s : State) : Bool :=
  let n := s.nextPC i.length
  (storeAddrs i s).any (fun a => a == n || a == n + 1 || a == n + 2)

/-- The four addresses of an interrupt's stack frame (60_exceptions R350, R353). -/
def entryFrame (s : State) : List Word := [s.sp - 1, s.sp - 2, s.sp - 3, s.sp - 4]

/-- The boundary the machine stands at accepts a request whose handler starts inside its own stack frame, where R83
applies to interrupt entry too (70_reset R388, decision D8): outside what the spec claims (log 14). -/
def entersOwnFrame (s : State) : Bool :=
  match s.accepted with
  | none => false
  | some r => (entryFrame s).contains (enterInterrupt r s).pc

/-- The instruction and the sampling of the boundary that ends it are inside what the spec claims: it does not store
ahead of the fetch, and no handler entered after it starts inside its own stack frame (70_reset R388). -/
def safeAfter (i : Instr) (s : State) : Bool :=
  !storesAhead i s &&
    match exec i s with
    | .next t => !entersOwnFrame t
    | .fault _ => false
    | .refused _ => false

/-- The next step is inside what the spec claims: reset is asserted, or the bytes at PC are an instruction (30_encoding
R122) that is executed, and an interrupt entered after it, as R83 and 70_reset R388 ask. -/
def State.safeStep (s : State) : Bool :=
  s.boundary.reset ||
    match decode (fetch (s.withInputs s.inputs.tail)).1 with
    | .ok (i, _) => safeAfter i (fetch (s.withInputs s.inputs.tail)).2
    | .error _ => false

end Sys2Proof.Machine
end

