-- ==== Sys2Proof/Certificates/Slice0/Obligations.lean ====
section
/-! DEFINITION. The statements for the provers. Each docstring names the rules of spec/ it states or rests on. Numbers are
compared as natural numbers or integers wherever the rule does, so that a statement does not repeat the definition it is
about. The predicates of `Sys2Proof.Claims` say once what the instructions of a family do; each of them begins with
`exec` answering a next state. -/

namespace Sys2Proof.Claims

open Sys2Proof.Machine

/-! ## Terms of the statements -/

/-- What a write of `v` to `a` sends to the environment: nothing where the machine keeps the byte itself. -/
def sent (s : State) (a : Word) (v : Byte) : List BusEvent := if s.storesInside a then [] else [.write a v]

/-- What the environment has seen after one plain read of `a` in the state `s` (20_memory R62, R78). -/
def seenAfterRead (s : State) (a : Word) : List BusEvent := (readByte false a s).2.bus

/-- An access by its address alone, a read or a write. -/
inductive Access where
  | read (a : Word)
  | write (a : Word)
deriving DecidableEq, Repr

/-- The access that an event of the environment is. -/
def accessOf : BusEvent → Access
  | .read a _ _ => .read a
  | .write a _ => .write a

/-- The accesses of an instruction that the machine does not serve itself, in their order: the reads it does not answer,
and then the writes it does not keep (20_memory R76, R78). -/
def accessesOutside (i : Instr) (s : State) : List Access :=
  ((loadAddrs i s).filter (fun a => !s.readsInside a)).map .read ++
    ((storeAddrs i s).filter (fun a => !s.storesInside a)).map .write

/-- Nothing is stored: not in A, T, IX, EP or SP, not in memory, not at 0078H. -/
def StoresNothing (s t : State) : Prop :=
  t.a = s.a ∧ t.t = s.t ∧ t.ix = s.ix ∧ t.ep = s.ep ∧ t.sp = s.sp ∧ t.mem = s.mem ∧ t.ps.high = s.ps.high

/-- N and Z of a byte (10_state R35, R36). -/
def NZByte (r : Byte) (p : Status) : Prop := p.n = decide (128 ≤ r.toNat) ∧ p.z = decide (r.toNat = 0)

/-- N and Z of a word (10_state R35, R36). -/
def NZWord (r : Word) (p : Status) : Prop := p.n = decide (32768 ≤ r.toNat) ∧ p.z = decide (r.toNat = 0)

/-- The flags H, I, IL, V and C are those of before (40_transfer R141; H by decision D3, log 25). -/
def KeepsHIVC (s t : State) : Prop :=
  t.ps.h = s.ps.h ∧ t.ps.i = s.ps.i ∧ t.ps.il = s.ps.il ∧ t.ps.v = s.ps.v ∧ t.ps.c = s.ps.c

/-- `PC <- nextPC` of an instruction of `n` bytes (00_scope R13). -/
def Advances (n : Nat) (s t : State) : Prop := t.pc.toNat = (s.pc.toNat + n) % 65536

/-- `LoadA8(v)` by an instruction of `n` bytes (40_transfer R142). -/
def LoadsByte (i : Instr) (n : Nat) (v : Byte) (s : State) : Prop :=
  ∃ t, exec i s = .next t ∧ Advances n s t ∧ t.al = v ∧ t.ah = s.ah ∧ t.tl = s.al ∧ t.th = s.th ∧ NZByte v t.ps ∧
    KeepsHIVC s t

/-- `LoadA16(v)` by an instruction of `n` bytes (40_transfer R142). -/
def LoadsWord (i : Instr) (n : Nat) (v : Word) (s : State) : Prop :=
  ∃ t, exec i s = .next t ∧ Advances n s t ∧ t.a = v ∧ t.t = s.a ∧ NZWord v t.ps ∧ KeepsHIVC s t

/-- `MemWrite(a, 1, v)` by an instruction of `n` bytes (20_memory R63). -/
def StoresByte (i : Instr) (n : Nat) (a : Word) (v : Byte) (s : State) : Prop :=
  ∃ t, exec i s = .next t ∧ Advances n s t ∧ (s.storesInside a = true → t.byteAt a = v) ∧ t.bus = sent s a v ++ s.bus

/-- `MemWrite(a, 2, w)` by an instruction of `n` bytes: the upper byte at `a`, written first, the lower byte at the
address after it (20_memory R63, R64). -/
def StoresWord (i : Instr) (n : Nat) (a w : Word) (s : State) : Prop :=
  ∃ t, exec i s = .next t ∧ Advances n s t ∧
    (s.storesInside a = true → (t.byteAt a).toNat = w.toNat / 256) ∧
    (s.storesInside (a + 1) = true → (t.byteAt (a + 1)).toNat = w.toNat % 256) ∧
    t.bus = sent s (a + 1) (lo w) ++ sent s a (hi w) ++ s.bus

/-- `AL <- Add8(AL, m, C)` by an instruction of `n` bytes (41_arithmetic R201). V is said by the bits: the operands have
one sign and the result the other. -/
def AddsToAl (i : Instr) (n : Nat) (m : Byte) (s : State) : Prop :=
  ∃ t, exec i s = .next t ∧ Advances n s t ∧ t.ah = s.ah ∧
    t.al.toNat = (s.al.toNat + m.toNat + s.ps.c.toNat) % 256 ∧ NZByte t.al t.ps ∧
    t.ps.c = decide (256 ≤ s.al.toNat + m.toNat + s.ps.c.toNat) ∧
    t.ps.h = decide (16 ≤ s.al.toNat % 16 + m.toNat % 16 + s.ps.c.toNat) ∧
    t.ps.v = (s.al.msb == m.msb && t.al.msb != s.al.msb)

/-- `AL <- Sub8(x, y, C)` by an instruction of `n` bytes (41_arithmetic R202). V is said by the bits: the operands have
different signs and the result has not that of the minuend. -/
def SubtractsToAl (i : Instr) (n : Nat) (x y : Byte) (s : State) : Prop :=
  ∃ t, exec i s = .next t ∧ Advances n s t ∧ t.ah = s.ah ∧
    (t.al.toNat : Int) = ((x.toNat : Int) - y.toNat - s.ps.c.toNat) % 256 ∧ NZByte t.al t.ps ∧
    t.ps.c = decide (x.toNat < y.toNat + s.ps.c.toNat) ∧
    t.ps.h = decide (x.toNat % 16 < y.toNat % 16 + s.ps.c.toNat) ∧
    t.ps.v = (x.msb != y.msb && t.al.msb != x.msb)

/-- The comparison of two bytes by an instruction of `n` bytes, the flags said by the order of the operands
(41_arithmetic R202, 42_branch R282). It stores nothing, and the environment has then seen `seen`. -/
def ComparesBytes (i : Instr) (n : Nat) (x y : Byte) (seen : List BusEvent) (s : State) : Prop :=
  ∃ t, exec i s = .next t ∧ Advances n s t ∧ StoresNothing s t ∧ t.bus = seen ∧
    t.ps.z = decide (x = y) ∧ t.ps.c = decide (x.toNat < y.toNat) ∧
    (t.ps.v ^^ t.ps.n) = decide (x.toInt < y.toInt) ∧
    t.ps.n = decide (128 ≤ (x.toNat + 256 - y.toNat) % 256)

/-- AL and the flags of a logical operation by an instruction of `n` bytes (41_arithmetic R203). -/
def SetsAlLogic (i : Instr) (n : Nat) (r : Byte) (s : State) : Prop :=
  ∃ t, exec i s = .next t ∧ Advances n s t ∧ t.al = r ∧ t.ah = s.ah ∧ NZByte r t.ps ∧ t.ps.v = false ∧
    t.ps.c = s.ps.c ∧ t.ps.h = s.ps.h

/-- A and the flags of a logical word operation (41_arithmetic R203). -/
def SetsALogic (i : Instr) (r : Word) (s : State) : Prop :=
  ∃ t, exec i s = .next t ∧ Advances 1 s t ∧ t.a = r ∧ NZWord r t.ps ∧ t.ps.v = false ∧ t.ps.c = s.ps.c ∧
    t.ps.h = s.ps.h

/-- INC Ri or DEC Ri with `f` the new value as a number and `v` the old byte that sets V (41_arithmetic R263, R264):
one read with the RMW signal, one write of the same address (20_memory R77). -/
def CountsRegister (i : Instr) (a : Word) (f : Nat → Nat) (v : Nat) (s : State) : Prop :=
  ∃ t r, exec i s = .next t ∧ Advances 1 s t ∧ r.toNat = f (readByte true a s).1.toNat ∧
    (s.storesInside a = true → t.byteAt a = r) ∧ t.bus = sent s a r ++ (readByte true a s).2.bus ∧ NZByte r t.ps ∧
    t.ps.v = decide ((readByte true a s).1.toNat = v) ∧ t.ps.c = s.ps.c

/-- A branch of `n` bytes that changes PC alone: taken, to nextPC plus the offset; not taken, to nextPC (42_branch
R281, R282). H unchanged is decision D3 (log 25). -/
def Branches (i : Instr) (n : Nat) (taken : Bool) (rel : Byte) (s : State) : Prop :=
  ∃ t, exec i s = .next t ∧ t = s.withPc t.pc ∧
    (t.pc.toNat : Int) = if taken then (s.pc.toNat + n + rel.toInt) % 65536 else ((s.pc.toNat : Int) + n) % 65536

/-- BBC and BBS: a branch that reads one byte and writes Z (42_branch R291). -/
def BranchesOnBit (i : Instr) (a : Word) (b : Nat) (want : Bool) (rel : Byte) (s : State) : Prop :=
  ∃ t, exec i s = .next t ∧ t.ps = { s.ps with z := !(s.byteAt a).getLsbD b } ∧ t.mem = s.mem ∧
    t.bus = (readByte false a s).2.bus ∧
    (t.pc.toNat : Int) =
      if (s.byteAt a).getLsbD b = want then (s.pc.toNat + 3 + rel.toInt) % 65536 else ((s.pc.toNat : Int) + 3) % 65536

/-- SETB and CLRB: the byte read with the RMW signal is written back with bit `b` at the value `bit` and the other bits as
they were (40_transfer R183, R184, 20_memory R77). -/
def WritesBit (i : Instr) (a : Word) (b : Nat) (bit : Bool) (s : State) : Prop :=
  ∃ t v, exec i s = .next t ∧ Advances 2 s t ∧
    (∀ k, k < 8 → v.getLsbD k = if k = b then bit else (readByte true a s).1.getLsbD k) ∧
    (s.storesInside a = true → t.byteAt a = v) ∧ t.bus = sent s a v ++ (readByte true a s).2.bus

/-- A word pushed below SP by an instruction (20_memory R70): the upper byte at SP - 2, the lower byte at SP - 1, the
lower one sent first. -/
def Pushes (i : Instr) (w : Word) (s t : State) : Prop :=
  exec i s = .next t ∧ t.sp = s.sp - 2 ∧
    (s.storesInside (s.sp - 2) = true → (t.byteAt (s.sp - 2)).toNat = w.toNat / 256) ∧
    (s.storesInside (s.sp - 1) = true → (t.byteAt (s.sp - 1)).toNat = w.toNat % 256)

/-- A byte whose two digits are decimal. -/
def IsBcd (x : Byte) : Prop := x.toNat / 16 ≤ 9 ∧ x.toNat % 16 ≤ 9

/-- The number that a packed decimal byte stands for. -/
def fromBcd (x : Byte) : Nat := 10 * (x.toNat / 16) + x.toNat % 16

/-- A row of Table 6.26-1 (41_arithmetic R268): C before, the range of AL[7:4], H before, the range of AL[3:0], the
correction and C after. -/
structure DaaRow where
  c : Bool
  u0 : Nat
  u1 : Nat
  h : Bool
  l0 : Nat
  l1 : Nat
  k : Nat
  c' : Bool

/-- Table 6.26-1, in the order of R268. -/
def daaRows : List DaaRow :=
  [ ⟨false, 0, 9, false, 0, 9, 0x00, false⟩,
    ⟨false, 0, 8, false, 10, 15, 0x06, false⟩,
    ⟨false, 0, 9, true, 0, 3, 0x06, false⟩,
    ⟨false, 10, 15, false, 0, 9, 0x60, true⟩,
    ⟨false, 9, 15, false, 10, 15, 0x66, true⟩,
    ⟨false, 10, 15, true, 0, 3, 0x66, true⟩,
    ⟨true, 0, 2, false, 0, 9, 0x60, true⟩,
    ⟨true, 0, 2, false, 10, 15, 0x66, true⟩,
    ⟨true, 0, 3, true, 0, 3, 0x66, true⟩ ]

/-- The state is one that a row of the table is about. -/
def DaaRow.covers (r : DaaRow) (s : State) : Prop :=
  s.ps.c = r.c ∧ s.ps.h = r.h ∧ r.u0 ≤ s.al.toNat / 16 ∧ s.al.toNat / 16 ≤ r.u1 ∧ r.l0 ≤ s.al.toNat % 16 ∧
    s.al.toNat % 16 ≤ r.l1

end Sys2Proof.Claims

section

open Sys2Proof Sys2Proof.Machine Sys2Proof.Claims

/-! ## Encoding -/

/-- Decoding the encoding of a well-formed instruction gives it back and leaves the bytes that follow
(30_encoding R100, R102, R116, R123). -/
def Obligations.DecodeInvertsEncode : Prop :=
  ∀ (i : Instr) (rest : List Byte), i.wellFormed = true → decode (encode i ++ rest) = .ok (i, rest)

/-- What the decoder accepts is a well-formed instruction whose encoding is exactly the bytes it took: no bit of an
encoding is ignored (30_encoding R103, R123). -/
def Obligations.DecodedBytesAreTheEncoding : Prop :=
  ∀ (bytes : List Byte) (i : Instr) (rest : List Byte),
    decode bytes = .ok (i, rest) → i.wellFormed = true ∧ bytes = encode i ++ rest

/-- Of the 256 first bytes, 44H alone begins no instruction (30_encoding R120, R122; decision D1, log 9). -/
def Obligations.OnlyOneFirstByteUnassigned : Prop :=
  ∀ (op b1 b2 : Byte) (rest : List Byte),
    (∃ i more, decode (op :: b1 :: b2 :: rest) = .ok (i, more)) ↔ op ≠ 0x44#8

/-- R116: the length of an instruction by its first byte, and the decoder takes that many bytes in all. -/
def Obligations.LengthByFirstByte : Prop :=
  (∀ op : Byte, opcodeLength op =
    if op.toNat ∈ [0x21, 0x31, 0x60, 0x61, 0x85, 0x86, 0x95, 0x96, 0xC4, 0xD4, 0xE4, 0xE5, 0xE6, 0xE7] ∨
        (0xB0 ≤ op.toNat ∧ op.toNat ≤ 0xBF) then 3
    else if op.toNat ∈ [0x04, 0x05, 0x06, 0x14, 0x15, 0x16, 0x24, 0x25, 0x26, 0x34, 0x35, 0x36, 0x45, 0x46, 0x54, 0x55,
        0x56, 0x64, 0x65, 0x66, 0x74, 0x75, 0x76, 0x87, 0x97, 0xC5, 0xC6, 0xD5, 0xD6] ∨
        (0x88 ≤ op.toNat ∧ op.toNat ≤ 0x8F) ∨ (0x98 ≤ op.toNat ∧ op.toNat ≤ 0x9F) ∨
        (0xA0 ≤ op.toNat ∧ op.toNat ≤ 0xAF) ∨ 0xF8 ≤ op.toNat then 2
    else 1) ∧
  ∀ (op : Byte) (rest : List Byte) (i : Instr) (more : List Byte),
    decode (op :: rest) = .ok (i, more) → opcodeLength op + more.length = (op :: rest).length

/-- Words that the source writes out decode to the instructions they stand for (20_memory R65, 30_encoding R103, R115,
and the examples of 40_transfer R155, 42_branch R281, R292). -/
def Obligations.WrittenOutWordsDecode : Prop :=
  decode [0x60#8, 0x56#8, 0x78#8] = .ok (.movAExt 0x5678#16, []) ∧
  decode [0xE4#8, 0x12#8, 0x34#8] = .ok (.movwAImm 0x1234#16, []) ∧
  decode [0xA0#8, 0x84#8] = .ok (.clrb 0x84#8 0, []) ∧
  decode [0xAD#8, 0x32#8] = .ok (.setb 0x32#8 5, []) ∧
  decode [0xDA#8] = .ok (.decReg 2, []) ∧
  decode [0xC9#8] = .ok (.incReg 1, []) ∧
  decode [0xEA#8] = .ok (.callv 2, []) ∧
  decode [0x85#8, 0x78#8, 0x0A#8] = .ok (.movDirImm 0x78#8 0x0A#8, []) ∧
  decode [0xB0#8, 0x84#8, 0xFB#8] = .ok (.bbc 0x84#8 0 0xFB#8, []) ∧
  decode [0xFC#8, 0xFE#8] = .ok (.bnz 0xFE#8, []) ∧
  decode [0x00#8] = .ok (.nop, [])

/-! ## Memory, addresses and PS -/

/-- A byte that the machine keeps reads back as written, and every other byte that the machine answers itself reads as
before (20_memory R62, R63, R80). -/
def Obligations.ByteWriteThenRead : Prop :=
  ∀ (a : Word) (v : Byte) (s : State), s.storesInside a = true →
    (writeByte a v s).byteAt a = v ∧
    ∀ b, b ≠ a → s.readsInside b = true → (writeByte a v s).byteAt b = s.byteAt b

/-- A word in memory has its upper byte at the first address and its lower byte at the next (20_memory R64; across
FFFFH the next is 0000H, decision D5, log 17), reads back whole, and is nowhere else. -/
def Obligations.WordWriteThenRead : Prop :=
  ∀ (a w : Word) (s : State), s.storesInside a = true → s.storesInside (a + 1) = true →
    ((writeWord a w s).byteAt a).toNat = w.toNat / 256 ∧
    ((writeWord a w s).byteAt (a + 1)).toNat = w.toNat % 256 ∧
    (writeWord a w s).wordAt a = w ∧
    ∀ b, b ≠ a → b ≠ a + 1 → s.readsInside b = true → (writeWord a w s).byteAt b = s.byteAt b

/-- Two memories in canonical form that read alike are the same data. The canonical form is the model's choice (log
1), that it holds no cell at 0078H is decision D11 (log 18). -/
def Obligations.CanonicalMemoryIsUnique : Prop :=
  ∀ m n : Memory, m.wf = true → n.wf = true → (∀ a, m.read a = n.read a) → m = n

/-- Address 0078H is PS[15:8] (10_state R39, 20_memory R79; decision D11, log 18): it reads {RP, DP}, a write sets RP
and DP and nothing else, and no byte of memory changes. MOV A,dir and MOV dir,A with dir = 78H reach it whatever DP
is. -/
def Obligations.MirrorAt0078 : Prop :=
  ∀ (v : Byte) (s : State),
    (s.byteAt 0x0078#16).toNat = 8 * s.ps.rp.toNat + s.ps.dp.toNat ∧
    (writeByte 0x0078#16 v s).ps.rp.toNat = v.toNat / 8 ∧ (writeByte 0x0078#16 v s).ps.dp.toNat = v.toNat % 8 ∧
    (writeByte 0x0078#16 v s).ps.low = s.ps.low ∧
    writeByte 0x0078#16 v s = s.withPs (writeByte 0x0078#16 v s).ps ∧
    (∃ t, exec (.movADir 0x78#8) s = .next t ∧ t.al.toNat = 8 * s.ps.rp.toNat + s.ps.dp.toNat) ∧
    ∃ t, exec (.movDirA 0x78#8) s = .next t ∧ t.ps.rp.toNat = s.al.toNat / 8 ∧ t.ps.dp.toNat = s.al.toNat % 8

/-- R66: the conversion of a direct operand address, and the second byte of a word at `DirAddr(d) + 1`. -/
def Obligations.DirectAddresses : Prop :=
  ∀ (d : Byte) (s : State),
    (d.toNat < 0x80 → (dirAddr d s).toNat = d.toNat) ∧
    (0x80 ≤ d.toNat →
      (dirAddr d s).toNat = 0x0080 + 128 * s.ps.dp.toNat + (d.toNat - 0x80) ∧
      0x0080 + 128 * s.ps.dp.toNat ≤ (dirAddr d s).toNat ∧ (dirAddr d s).toNat ≤ 0x00FF + 128 * s.ps.dp.toNat) ∧
    (s.readsInside (dirAddr d s) = true → s.readsInside (dirAddr d s + 1) = true →
      ∃ t, exec (.movwADir d) s = .next t ∧
        t.a.toNat = 256 * (s.byteAt (dirAddr d s)).toNat + (s.byteAt (dirAddr d s + 1)).toNat)

/-- R68: the address of register Ri in the current bank, i being the lower 3 bits of the opcode; so two names denote one
byte exactly when the bank and the number agree. -/
def Obligations.RegisterAddresses : Prop :=
  ∀ (i : Nat) (s : State), i < 8 →
    (regAddr i s).toNat = 0x0100 + 8 * s.ps.rp.toNat + i ∧
    decode [0x08#8 + BitVec.ofNat 8 i] = .ok (.movAReg i, []) ∧
    ∀ (j : Nat) (t : State), j < 8 → (regAddr i s = regAddr j t ↔ s.ps.rp = t.ps.rp ∧ i = j)

/-- The CALLV table, the interrupt vectors, the two entries they share, and the reset vector (20_memory R71 to R73). -/
def Obligations.VectorAddresses : Prop :=
  (∀ k, k < 8 → (callvAddr k).toNat = 0xFFC0 + 2 * k) ∧
  (∀ n, n < 24 → (irqVector n).toNat = 0xFFFA - 2 * n) ∧
  irqVector 22 = callvAddr 7 ∧ irqVector 23 = callvAddr 6 ∧ resetVector.toNat = 0xFFFE ∧ modeByteAddr.toNat = 0xFFFD

/-- R70: a push decreases SP by 2 and leaves the upper byte of the data at the new SP and the lower byte after it, the
lower byte written first; a pop reads the upper byte at SP, then the lower byte, and increases SP by 2; a pop after a
push gives the data and SP back. Nothing checks SP. -/
def Obligations.PushAndPop : Prop :=
  ∀ (w : Word) (s : State),
    (push16 w s).sp.toNat = (s.sp.toNat + 65534) % 65536 ∧
    (s.storesInside (s.sp - 2) = true → ((push16 w s).byteAt (push16 w s).sp).toNat = w.toNat / 256) ∧
    (s.storesInside (s.sp - 1) = true → ((push16 w s).byteAt ((push16 w s).sp + 1)).toNat = w.toNat % 256) ∧
    (push16 w s).bus = sent s (s.sp - 2) (hi w) ++ sent s (s.sp - 1) (lo w) ++ s.bus ∧
    (pop16 s).1.toNat =
      256 * (readByte false s.sp s).1.toNat + (readByte false (s.sp + 1) (readByte false s.sp s).2).1.toNat ∧
    (pop16 s).2.bus = (readByte false (s.sp + 1) (readByte false s.sp s).2).2.bus ∧
    (pop16 s).2.sp.toNat = (s.sp.toNat + 2) % 65536 ∧ (pop16 s).2.mem = s.mem ∧
    (s.storesInside (s.sp - 2) = true → s.storesInside (s.sp - 1) = true →
      (pop16 (push16 w s)).1 = w ∧ (pop16 (push16 w s)).2.sp = s.sp)

/-- R28: the bits of PS, and PS and its 16-bit form determine each other. -/
def Obligations.StatusLayout : Prop :=
  (∀ p : Status, p.toWord.toNat =
    2048 * p.rp.toNat + 256 * p.dp.toNat + 128 * p.h.toNat + 64 * p.i.toNat + 16 * p.il.toNat + 8 * p.n.toNat +
      4 * p.z.toNat + 2 * p.v.toNat + p.c.toNat) ∧
  (∀ p : Status, Status.ofWord p.toWord = p) ∧ ∀ w : Word, (Status.ofWord w).toWord = w

/-! ## Every instruction -/

/-- Every instruction, in every state, completes: none raises a fault or is refused (60_exceptions R341). One that is no
branch leaves PC at the byte after it (10_state R21, 40_transfer R140, 41_arithmetic R200, 43_other R320). -/
def Obligations.EveryInstructionCompletes : Prop :=
  ∀ (i : Instr) (s : State), ∃ t, exec i s = .next t ∧ t.product = s.product ∧ t.inputs = s.inputs ∧
    (isBranch i = false → t.pc.toNat = (s.pc.toNat + (encode i).length) % 65536)

/-- The frame of the registers and flags: an instruction leaves every field that its rule does not list, but that a
store to 0078H writes RP and DP (40_transfer R141, 41_arithmetic R271, 42_branch R302, 43_other R332, 20_memory R79).
The model's choices in it: H is unlisted where decision D3 leaves it unchanged (log 25) and listed where the adder
leaves it free (log 10); what DIVU with A = 0000H keeps is decision D2 (log 11); what DAA outside its table keeps is
decision D12 (log 12). -/
def Obligations.UnlistedFieldsKeepTheirValue : Prop :=
  ∀ (i : Instr) (s t : State) (f : Field), exec i s = .next t → f ∉ writtenFields i →
    (f = .rp ∨ f = .dp → mirrorAddr ∉ storeAddrs i s) → t.field f = s.field f

/-- The frame of memory: a byte that the machine answers itself reads after an instruction as before, unless the
instruction stores to it. 0078H also changes where the instruction writes PS (20_memory R76, R79). That every store to
0078H, by whatever addressing mode, goes to PS alone is decision D11 (log 18). -/
def Obligations.OnlyStoredBytesChange : Prop :=
  ∀ (i : Instr) (s t : State) (b : Word), exec i s = .next t → b ∉ storeAddrs i s → s.readsInside b = true →
    (b = mirrorAddr → i ≠ .movwPsA ∧ i ≠ .reti) → t.byteAt b = s.byteAt b

/-- The frame of the environment: no instruction touches the product or the inputs, and what the environment sees of an
instruction is exactly those of its accesses that the machine does not serve itself, in their order: its reads of other
addresses than RAM, ROM and 0078H, and its writes to other addresses than RAM and 0078H. So an instruction whose reads
the machine answers and whose writes it keeps shows the environment nothing (20_memory R62, R63, R76, R78). A write to
ROM and an access to an unpopulated address are the environment's by the model's choice (log 5). -/
def Obligations.EnvironmentSeesOnlyItsOwnAccesses : Prop :=
  ∀ (i : Instr) (s t : State), exec i s = .next t →
    t.product = s.product ∧ t.inputs = s.inputs ∧
    (∃ seen, t.bus = seen ++ s.bus ∧ seen.map accessOf = (accessesOutside i s).reverse) ∧
    ((∀ a ∈ loadAddrs i s, s.readsInside a = true) → (∀ a ∈ storeAddrs i s, s.storesInside a = true) → t.bus = s.bus)

/-! ## Transfer instructions -/

/-- The seven byte loads and the six word loads into A, each with the automatic copy of AL to TL or of A to T, N and Z
from the data and the other flags unchanged, and the address `@IX+off` (40_transfer R141, R142, R148 to R154, R164 to
R169, 30_encoding R107). H unchanged is decision D3, the model's choice (log 25). -/
def Obligations.LoadsIntoA : Prop :=
  ∀ s : State,
    (∀ d8, LoadsByte (.movAImm d8) 2 d8 s) ∧
    (∀ dir, LoadsByte (.movADir dir) 2 (s.byteAt (dirAddr dir s)) s) ∧
    (∀ off, LoadsByte (.movAAtIx off) 2 (s.byteAt (ixAddr off s)) s) ∧
    (∀ ext, LoadsByte (.movAExt ext) 3 (s.byteAt ext) s) ∧
    LoadsByte .movAAtA 1 (s.byteAt s.a) s ∧
    LoadsByte .movAAtEp 1 (s.byteAt s.ep) s ∧
    (∀ i, LoadsByte (.movAReg i) 1 (s.byteAt (regAddr i s)) s) ∧
    (∀ d16, LoadsWord (.movwAImm d16) 3 d16 s) ∧
    (∀ dir, LoadsWord (.movwADir dir) 2 (s.wordAt (dirAddr dir s)) s) ∧
    (∀ off, LoadsWord (.movwAAtIx off) 2 (s.wordAt (ixAddr off s)) s) ∧
    (∀ ext, LoadsWord (.movwAExt ext) 3 (s.wordAt ext) s) ∧
    LoadsWord .movwAAtA 1 (s.wordAt s.a) s ∧
    LoadsWord .movwAAtEp 1 (s.wordAt s.ep) s ∧
    ∀ off, ((ixAddr off s).toNat : Int) = (s.ix.toNat + off.toInt) % 65536

/-- The ten byte stores: AL, TL or an immediate to the effective address (40_transfer R143 to R147, R155 to R158,
R176). -/
def Obligations.ByteStores : Prop :=
  ∀ s : State,
    (∀ dir, StoresByte (.movDirA dir) 2 (dirAddr dir s) s.al s) ∧
    (∀ off, StoresByte (.movAtIxA off) 2 (ixAddr off s) s.al s) ∧
    (∀ ext, StoresByte (.movExtA ext) 3 ext s.al s) ∧
    StoresByte .movAtEpA 1 s.ep s.al s ∧
    (∀ i, StoresByte (.movRegA i) 1 (regAddr i s) s.al s) ∧
    StoresByte .movAtAT 1 s.a s.tl s ∧
    (∀ dir d8, StoresByte (.movDirImm dir d8) 3 (dirAddr dir s) d8 s) ∧
    (∀ off d8, StoresByte (.movAtIxImm off d8) 3 (ixAddr off s) d8 s) ∧
    (∀ d8, StoresByte (.movAtEpImm d8) 2 s.ep d8 s) ∧
    ∀ i d8, StoresByte (.movRegImm i d8) 2 (regAddr i s) d8 s

/-- The five word stores: A or T to the effective address (40_transfer R159 to R162, R177). -/
def Obligations.WordStores : Prop :=
  ∀ s : State,
    (∀ dir, StoresWord (.movwDirA dir) 2 (dirAddr dir s) s.a s) ∧
    (∀ off, StoresWord (.movwAtIxA off) 2 (ixAddr off s) s.a s) ∧
    (∀ ext, StoresWord (.movwExtA ext) 3 ext s.a s) ∧
    StoresWord .movwAtEpA 1 s.ep s.a s ∧
    StoresWord .movwAtAT 1 s.a s.t s

/-- The moves and exchanges between registers: T is not written but where it is an operand, and no flag is
(40_transfer R163, R170 to R175, R178, R181, R182, R185 to R190). H unchanged is decision D3, the model's choice (log
25). -/
def Obligations.RegisterMovesAndExchanges : Prop :=
  ∀ (d : Word) (s : State),
    (∃ t, exec .movwEpA s = .next t ∧ t = (s.withEp s.a).withPc t.pc ∧ Advances 1 s t) ∧
    (∃ t, exec .movwIxA s = .next t ∧ t = (s.withIx s.a).withPc t.pc ∧ Advances 1 s t) ∧
    (∃ t, exec .movwSpA s = .next t ∧ t = (s.withSp s.a).withPc t.pc ∧ Advances 1 s t) ∧
    (∃ t, exec .movwAEp s = .next t ∧ t = (s.withA s.ep).withPc t.pc ∧ Advances 1 s t) ∧
    (∃ t, exec .movwAIx s = .next t ∧ t = (s.withA s.ix).withPc t.pc ∧ Advances 1 s t) ∧
    (∃ t, exec .movwASp s = .next t ∧ t = (s.withA s.sp).withPc t.pc ∧ Advances 1 s t) ∧
    (∃ t, exec .movwAPc s = .next t ∧ t = (s.withA t.pc).withPc t.pc ∧ Advances 1 s t) ∧
    (∃ t, exec (.movwEpImm d) s = .next t ∧ t = (s.withEp d).withPc t.pc ∧ Advances 3 s t) ∧
    (∃ t, exec (.movwIxImm d) s = .next t ∧ t = (s.withIx d).withPc t.pc ∧ Advances 3 s t) ∧
    (∃ t, exec (.movwSpImm d) s = .next t ∧ t = (s.withSp d).withPc t.pc ∧ Advances 3 s t) ∧
    (∃ t, exec .swap s = .next t ∧ t.al = s.ah ∧ t.ah = s.al ∧ t = (s.withA t.a).withPc t.pc ∧ Advances 1 s t) ∧
    (∃ t, exec .xchAT s = .next t ∧ t.al = s.tl ∧ t.tl = s.al ∧ t.ah = s.ah ∧ t.th = s.th ∧
      t = ((s.withA t.a).withT t.t).withPc t.pc ∧ Advances 1 s t) ∧
    (∃ t, exec .xchwAT s = .next t ∧ t = ((s.withA s.t).withT s.a).withPc t.pc ∧ Advances 1 s t) ∧
    (∃ t, exec .xchwAEp s = .next t ∧ t = ((s.withA s.ep).withEp s.a).withPc t.pc ∧ Advances 1 s t) ∧
    (∃ t, exec .xchwAIx s = .next t ∧ t = ((s.withA s.ix).withIx s.a).withPc t.pc ∧ Advances 1 s t) ∧
    ∃ t, exec .xchwASp s = .next t ∧ t = ((s.withA s.sp).withSp s.a).withPc t.pc ∧ Advances 1 s t

/-- MOVW A,PS reads all 16 bits of PS and MOVW PS,A writes all of them (40_transfer R179, R180). H unchanged by MOVW
A,PS is decision D3, the model's choice (log 25). -/
def Obligations.StatusMoves : Prop :=
  ∀ s : State,
    (∃ t, exec .movwAPs s = .next t ∧ Advances 1 s t ∧ t.ps = s.ps ∧ t.t = s.t ∧ t.a.toNat =
      2048 * s.ps.rp.toNat + 256 * s.ps.dp.toNat + 128 * s.ps.h.toNat + 64 * s.ps.i.toNat + 16 * s.ps.il.toNat +
        8 * s.ps.n.toNat + 4 * s.ps.z.toNat + 2 * s.ps.v.toNat + s.ps.c.toNat) ∧
    ∃ t, exec .movwPsA s = .next t ∧ Advances 1 s t ∧ t.a = s.a ∧ t.ps.rp.toNat = s.a.toNat / 2048 ∧
      t.ps.dp.toNat = s.a.toNat / 256 % 8 ∧ t.ps.h = s.a.getLsbD 7 ∧ t.ps.i = s.a.getLsbD 6 ∧
      t.ps.il.toNat = s.a.toNat / 16 % 4 ∧ t.ps.n = s.a.getLsbD 3 ∧ t.ps.z = s.a.getLsbD 2 ∧
      t.ps.v = s.a.getLsbD 1 ∧ t.ps.c = s.a.getLsbD 0

/-- SETB and CLRB change one bit of the byte at the direct address by a read-modify-write of the whole byte
(40_transfer R183, R184, 20_memory R77). -/
def Obligations.BitSetAndClear : Prop :=
  ∀ (dir : Byte) (b : Nat) (s : State), b < 8 →
    WritesBit (.setb dir b) (dirAddr dir s) b true s ∧ WritesBit (.clrb dir b) (dirAddr dir s) b false s

/-! ## Operation instructions -/

/-- ADDC A and the five forms of ADDC A,<ea> (41_arithmetic R200, R201, R207 to R211, R213). That H is written exactly
is decision D3 (log 25). -/
def Obligations.ByteAdditions : Prop :=
  ∀ s : State,
    AddsToAl .addcA 1 s.tl s ∧
    (∀ i, AddsToAl (.addcAReg i) 1 (s.byteAt (regAddr i s)) s) ∧
    (∀ d8, AddsToAl (.addcAImm d8) 2 d8 s) ∧
    (∀ dir, AddsToAl (.addcADir dir) 2 (s.byteAt (dirAddr dir s)) s) ∧
    (∀ off, AddsToAl (.addcAAtIx off) 2 (s.byteAt (ixAddr off s)) s) ∧
    AddsToAl .addcAAtEp 1 (s.byteAt s.ep) s

/-- SUBC A, with TL the minuend, and the five forms of SUBC A,<ea>, with AL the minuend (41_arithmetic R200, R202,
R214 to R218, R220). That H is written exactly is decision D3 (log 25). -/
def Obligations.ByteSubtractions : Prop :=
  ∀ s : State,
    SubtractsToAl .subcA 1 s.tl s.al s ∧
    (∀ i, SubtractsToAl (.subcAReg i) 1 s.al (s.byteAt (regAddr i s)) s) ∧
    (∀ d8, SubtractsToAl (.subcAImm d8) 2 s.al d8 s) ∧
    (∀ dir, SubtractsToAl (.subcADir dir) 2 s.al (s.byteAt (dirAddr dir s)) s) ∧
    (∀ off, SubtractsToAl (.subcAAtIx off) 2 s.al (s.byteAt (ixAddr off s)) s) ∧
    SubtractsToAl .subcAAtEp 1 s.al (s.byteAt s.ep) s

/-- ADDCW A and SUBCW A, with T the minuend; H is free and nothing is said of it (41_arithmetic R201, R202, R212, R219;
log 10). -/
def Obligations.WordAdditionAndSubtraction : Prop :=
  ∀ s : State,
    (∃ t, exec .addcwA s = .next t ∧ Advances 1 s t ∧ t.t = s.t ∧
      t.a.toNat = (s.a.toNat + s.t.toNat + s.ps.c.toNat) % 65536 ∧ NZWord t.a t.ps ∧
      t.ps.c = decide (65536 ≤ s.a.toNat + s.t.toNat + s.ps.c.toNat) ∧
      t.ps.v = (s.a.msb == s.t.msb && t.a.msb != s.a.msb)) ∧
    ∃ t, exec .subcwA s = .next t ∧ Advances 1 s t ∧ t.t = s.t ∧
      (t.a.toNat : Int) = ((s.t.toNat : Int) - s.a.toNat - s.ps.c.toNat) % 65536 ∧ NZWord t.a t.ps ∧
      t.ps.c = decide (s.t.toNat < s.a.toNat + s.ps.c.toNat) ∧
      t.ps.v = (s.t.msb != s.a.msb && t.a.msb != s.t.msb)

/-- CMP A, CMP A,<ea>, CMP <ea>,#d8 and CMPW A set the flags by the order of their operands and store no result: A, T,
IX, EP, SP, memory and 0078H are as before, and the environment sees at most the one plain read of the operand
(41_arithmetic R202, R221 to R231, 20_memory R76). -/
def Obligations.Comparisons : Prop :=
  ∀ s : State,
    ComparesBytes .cmpA 1 s.tl s.al s.bus s ∧
    (∀ i, ComparesBytes (.cmpAReg i) 1 s.al (s.byteAt (regAddr i s)) (seenAfterRead s (regAddr i s)) s) ∧
    (∀ d8, ComparesBytes (.cmpAImm d8) 2 s.al d8 s.bus s) ∧
    (∀ dir, ComparesBytes (.cmpADir dir) 2 s.al (s.byteAt (dirAddr dir s)) (seenAfterRead s (dirAddr dir s)) s) ∧
    (∀ off, ComparesBytes (.cmpAAtIx off) 2 s.al (s.byteAt (ixAddr off s)) (seenAfterRead s (ixAddr off s)) s) ∧
    ComparesBytes .cmpAAtEp 1 s.al (s.byteAt s.ep) (seenAfterRead s s.ep) s ∧
    (∀ dir d8,
      ComparesBytes (.cmpDirImm dir d8) 3 (s.byteAt (dirAddr dir s)) d8 (seenAfterRead s (dirAddr dir s)) s) ∧
    (∀ off d8,
      ComparesBytes (.cmpAtIxImm off d8) 3 (s.byteAt (ixAddr off s)) d8 (seenAfterRead s (ixAddr off s)) s) ∧
    (∀ d8, ComparesBytes (.cmpAtEpImm d8) 2 (s.byteAt s.ep) d8 (seenAfterRead s s.ep) s) ∧
    (∀ i d8, ComparesBytes (.cmpRegImm i d8) 2 (s.byteAt (regAddr i s)) d8 (seenAfterRead s (regAddr i s)) s) ∧
    ∃ t, exec .cmpwA s = .next t ∧ Advances 1 s t ∧ StoresNothing s t ∧ t.bus = s.bus ∧ t.ps.z = decide (s.t = s.a) ∧
      t.ps.c = decide (s.t.toNat < s.a.toNat) ∧ (t.ps.v ^^ t.ps.n) = decide (s.t.toInt < s.a.toInt) ∧
      t.ps.n = decide (32768 ≤ (s.t.toNat + 65536 - s.a.toNat) % 65536)

/-- AND, OR and XOR, byte and word: N and Z from the result, V cleared, C and H unchanged (41_arithmetic R203, R232 to
R252). H unchanged is decision D3, the model's choice (log 25). -/
def Obligations.LogicalOperations : Prop :=
  ∀ s : State,
    SetsAlLogic .andA 1 (s.al &&& s.tl) s ∧ SetsAlLogic .orA 1 (s.al ||| s.tl) s ∧
    SetsAlLogic .xorA 1 (s.al ^^^ s.tl) s ∧
    (∀ i, SetsAlLogic (.andAReg i) 1 (s.al &&& s.byteAt (regAddr i s)) s ∧
      SetsAlLogic (.orAReg i) 1 (s.al ||| s.byteAt (regAddr i s)) s ∧
      SetsAlLogic (.xorAReg i) 1 (s.al ^^^ s.byteAt (regAddr i s)) s) ∧
    (∀ d8, SetsAlLogic (.andAImm d8) 2 (s.al &&& d8) s ∧ SetsAlLogic (.orAImm d8) 2 (s.al ||| d8) s ∧
      SetsAlLogic (.xorAImm d8) 2 (s.al ^^^ d8) s) ∧
    (∀ dir, SetsAlLogic (.andADir dir) 2 (s.al &&& s.byteAt (dirAddr dir s)) s ∧
      SetsAlLogic (.orADir dir) 2 (s.al ||| s.byteAt (dirAddr dir s)) s ∧
      SetsAlLogic (.xorADir dir) 2 (s.al ^^^ s.byteAt (dirAddr dir s)) s) ∧
    (∀ off, SetsAlLogic (.andAAtIx off) 2 (s.al &&& s.byteAt (ixAddr off s)) s ∧
      SetsAlLogic (.orAAtIx off) 2 (s.al ||| s.byteAt (ixAddr off s)) s ∧
      SetsAlLogic (.xorAAtIx off) 2 (s.al ^^^ s.byteAt (ixAddr off s)) s) ∧
    SetsAlLogic .andAAtEp 1 (s.al &&& s.byteAt s.ep) s ∧ SetsAlLogic .orAAtEp 1 (s.al ||| s.byteAt s.ep) s ∧
    SetsAlLogic .xorAAtEp 1 (s.al ^^^ s.byteAt s.ep) s ∧
    SetsALogic .andwA (s.a &&& s.t) s ∧ SetsALogic .orwA (s.a ||| s.t) s ∧ SetsALogic .xorwA (s.a ^^^ s.t) s

/-- INCW and DECW: of A with N and Z from the new value and V and C unchanged, of SP, IX and EP with no flag
(41_arithmetic R253 to R260). H is free for A (log 10); for SP, IX and EP H unchanged is decision D3, the model's
choice (log 25). -/
def Obligations.WordCounts : Prop :=
  ∀ s : State,
    (∃ t, exec .incwA s = .next t ∧ Advances 1 s t ∧ t.a.toNat = (s.a.toNat + 1) % 65536 ∧ NZWord t.a t.ps ∧
      t.ps.v = s.ps.v ∧ t.ps.c = s.ps.c) ∧
    (∃ t, exec .decwA s = .next t ∧ Advances 1 s t ∧ t.a.toNat = (s.a.toNat + 65535) % 65536 ∧ NZWord t.a t.ps ∧
      t.ps.v = s.ps.v ∧ t.ps.c = s.ps.c) ∧
    (∃ t, exec .incwSp s = .next t ∧ Advances 1 s t ∧ t.sp.toNat = (s.sp.toNat + 1) % 65536 ∧ t.ps = s.ps) ∧
    (∃ t, exec .decwSp s = .next t ∧ Advances 1 s t ∧ t.sp.toNat = (s.sp.toNat + 65535) % 65536 ∧ t.ps = s.ps) ∧
    (∃ t, exec .incwIx s = .next t ∧ Advances 1 s t ∧ t.ix.toNat = (s.ix.toNat + 1) % 65536 ∧ t.ps = s.ps) ∧
    (∃ t, exec .decwIx s = .next t ∧ Advances 1 s t ∧ t.ix.toNat = (s.ix.toNat + 65535) % 65536 ∧ t.ps = s.ps) ∧
    (∃ t, exec .incwEp s = .next t ∧ Advances 1 s t ∧ t.ep.toNat = (s.ep.toNat + 1) % 65536 ∧ t.ps = s.ps) ∧
    ∃ t, exec .decwEp s = .next t ∧ Advances 1 s t ∧ t.ep.toNat = (s.ep.toNat + 65535) % 65536 ∧ t.ps = s.ps

/-- INC Ri and DEC Ri: N, Z, V from the count of the register's byte, C unchanged (41_arithmetic R263, R264, 20_memory
R77). -/
def Obligations.RegisterCounts : Prop :=
  ∀ (i : Nat) (s : State),
    CountsRegister (.incReg i) (regAddr i s) (fun m => (m + 1) % 256) 0x7F s ∧
    CountsRegister (.decReg i) (regAddr i s) (fun m => (m + 255) % 256) 0x80 s

/-- MULU A: the exact unsigned product of AL and TL in all of A, T and every flag unchanged. DIVU A: with A not 0000H
the quotient and the remainder of T by A and Z = 0; with A = 0000H it completes with Z = 1, and nothing is said of the
free A and T; N, V, C and H unchanged (41_arithmetic R261, R262; decision D2, log 11). H unchanged is decision D3, the
model's choice (log 25). -/
def Obligations.MultiplicationAndDivision : Prop :=
  ∀ s : State,
    (∃ t, exec .muluA s = .next t ∧ Advances 1 s t ∧ t.a.toNat = s.al.toNat * s.tl.toNat ∧ t.t = s.t ∧ t.ps = s.ps) ∧
    ∃ t, exec .divuA s = .next t ∧ Advances 1 s t ∧ t.ps = { s.ps with z := decide (s.a = 0#16) } ∧
      (s.a ≠ 0#16 → s.t.toNat = t.a.toNat * s.a.toNat + t.t.toNat ∧ t.t.toNat < s.a.toNat)

/-- ROLC A and RORC A rotate the nine bits of C and AL, and each undoes the other (41_arithmetic R265, R266). -/
def Obligations.Rotations : Prop :=
  ∀ s : State,
    (∃ t, exec .rolcA s = .next t ∧ Advances 1 s t ∧ t.ah = s.ah ∧ t.t = s.t ∧ NZByte t.al t.ps ∧ t.ps.v = s.ps.v ∧
      256 * t.ps.c.toNat + t.al.toNat = 2 * s.al.toNat + s.ps.c.toNat ∧
      ∃ u, exec .rorcA t = .next u ∧ u.a = s.a ∧ u.ps.c = s.ps.c) ∧
    ∃ t, exec .rorcA s = .next t ∧ Advances 1 s t ∧ t.ah = s.ah ∧ t.t = s.t ∧ NZByte t.al t.ps ∧ t.ps.v = s.ps.v ∧
      2 * t.al.toNat + t.ps.c.toNat = 256 * s.ps.c.toNat + s.al.toNat ∧
      ∃ u, exec .rolcA t = .next u ∧ u.a = s.a ∧ u.ps.c = s.ps.c

/-- DAA on every row of Table 6.26-1 (41_arithmetic R267, R268); outside the table it completes all the same, with AH,
T and H unchanged and nothing said of the free values (R269; decision D12, log 12). H unchanged, on the rows and
outside them, is decision D3, the model's choice (log 25). -/
def Obligations.DecimalAdjustAfterAddition : Prop :=
  ∀ s : State, ∃ t, exec .daa s = .next t ∧ Advances 1 s t ∧ t.ah = s.ah ∧ t.t = s.t ∧ t.ps.h = s.ps.h ∧
    ∀ r ∈ daaRows, r.covers s →
      t.al.toNat = (s.al.toNat + r.k) % 256 ∧ t.ps.c = r.c' ∧ NZByte t.al t.ps ∧
      t.ps.v = decide (127 < s.al.toInt + (r.k : Int))

/-- DAS with the correction of Table 6.27-1; C and H unchanged (41_arithmetic R270). H unchanged is decision D3, the
model's choice (log 25). -/
def Obligations.DecimalAdjustAfterSubtraction : Prop :=
  ∀ s : State, ∃ t, exec .das s = .next t ∧ Advances 1 s t ∧ t.ah = s.ah ∧ t.t = s.t ∧ t.ps.h = s.ps.h ∧
    t.ps.c = s.ps.c ∧ NZByte t.al t.ps ∧
    (t.al.toNat : Int) = ((s.al.toNat : Int) - 96 * s.ps.c.toNat - 6 * s.ps.h.toNat) % 256 ∧
    t.ps.v = decide (s.al.toInt - 96 * s.ps.c.toNat - 6 * s.ps.h.toNat < -128)

/-- ADDC and then DAA add two packed decimal bytes and a carry: the decimal result in AL, the hundred in C
(41_arithmetic R201, R205, R267 to R269). That ADDC writes H exactly is decision D3 (log 25). -/
def Obligations.DecimalAddition : Prop :=
  ∀ (y : Byte) (s : State), IsBcd s.al → IsBcd y →
    ∃ t u, exec (.addcAImm y) s = .next t ∧ exec .daa t = .next u ∧ IsBcd u.al ∧
      fromBcd u.al + 100 * u.ps.c.toNat = fromBcd s.al + fromBcd y + s.ps.c.toNat

/-- SUBC and then DAS subtract a packed decimal byte and a borrow: the decimal result in AL, the borrowed hundred in C
(41_arithmetic R202, R205, R270). That SUBC writes H exactly is decision D3 (log 25). -/
def Obligations.DecimalSubtraction : Prop :=
  ∀ (y : Byte) (s : State), IsBcd s.al → IsBcd y →
    ∃ t u, exec (.subcAImm y) s = .next t ∧ exec .das t = .next u ∧ IsBcd u.al ∧
      fromBcd u.al + fromBcd y + s.ps.c.toNat = fromBcd s.al + 100 * u.ps.c.toNat

/-! ## Branch instructions -/

/-- R281: the target of a relative branch, for the eight conditional branches (2 bytes) and BBC and BBS (3 bytes). -/
def Obligations.RelativeTargets : Prop :=
  ∀ (rel : Byte) (s : State),
    (sext rel).toNat = (if rel.toNat < 0x80 then rel.toNat else rel.toNat + 0xFF00) ∧
    ((relTarget 2 rel s).toNat : Int) = (s.pc.toNat + 2 + rel.toInt) % 65536 ∧
    ((relTarget 3 rel s).toNat : Int) = (s.pc.toNat + 3 + rel.toInt) % 65536 ∧
    relTarget 2 0xFE#8 s = s.pc ∧ relTarget 3 0xFD#8 s = s.pc ∧ relTarget 2 0x00#8 s = s.nextPC 2

/-- The eight conditional branches: each tests its flags as they are and changes PC alone (42_branch R282 to R290). H
unchanged is decision D3, the model's choice (log 25). -/
def Obligations.ConditionalBranches : Prop :=
  ∀ (rel : Byte) (s : State),
    Branches (.bnc rel) 2 (!s.ps.c) rel s ∧ Branches (.bc rel) 2 s.ps.c rel s ∧
    Branches (.bp rel) 2 (!s.ps.n) rel s ∧ Branches (.bn rel) 2 s.ps.n rel s ∧
    Branches (.bnz rel) 2 (!s.ps.z) rel s ∧ Branches (.bz rel) 2 s.ps.z rel s ∧
    Branches (.bge rel) 2 (s.ps.v == s.ps.n) rel s ∧ Branches (.blt rel) 2 (s.ps.v != s.ps.n) rel s

/-- After CMP A,#d8 the conditional branches follow the order of AL and d8, unsigned and signed (42_branch R282,
41_arithmetic R202, R223). H unchanged by the branches is decision D3, the model's choice (log 25). -/
def Obligations.BranchesAfterComparison : Prop :=
  ∀ (d8 rel : Byte) (s : State), ∃ t, exec (.cmpAImm d8) s = .next t ∧
    Branches (.bz rel) 2 (decide (s.al = d8)) rel t ∧
    Branches (.bnz rel) 2 (decide (s.al ≠ d8)) rel t ∧
    Branches (.bc rel) 2 (decide (s.al.toNat < d8.toNat)) rel t ∧
    Branches (.bnc rel) 2 (decide (d8.toNat ≤ s.al.toNat)) rel t ∧
    Branches (.blt rel) 2 (decide (s.al.toInt < d8.toInt)) rel t ∧
    Branches (.bge rel) 2 (decide (d8.toInt ≤ s.al.toInt)) rel t

/-- BBC and BBS read the byte once, set Z to the complement of the bit and branch on the bit (42_branch R291 to R293).
H unchanged is decision D3, the model's choice (log 25). -/
def Obligations.BitBranches : Prop :=
  ∀ (dir : Byte) (b : Nat) (rel : Byte) (s : State), b < 8 →
    BranchesOnBit (.bbc dir b rel) (dirAddr dir s) b false rel s ∧
    BranchesOnBit (.bbs dir b rel) (dirAddr dir s) b true rel s

/-- JMP ext and JMP @A set PC alone; XCHW A,PC exchanges A with the address of the next instruction (42_branch R294,
R295, R298). H unchanged is decision D3, the model's choice (log 25). -/
def Obligations.Jumps : Prop :=
  ∀ (ext : Word) (s : State),
    (∃ t, exec (.jmpExt ext) s = .next t ∧ t = s.withPc ext) ∧
    (∃ t, exec .jmpAtA s = .next t ∧ t = s.withPc s.a) ∧
    ∃ t, exec .xchwAPc s = .next t ∧ t.pc = s.a ∧ t.a.toNat = (s.pc.toNat + 1) % 65536 ∧ t = (s.withA t.a).withPc t.pc

/-- CALL ext and CALLV #vct push the address of the next instruction; CALLV goes to the table's word as it was before the
push (42_branch R296, R297). -/
def Obligations.Calls : Prop :=
  ∀ s : State,
    (∀ ext, ∃ t, Pushes (.callExt ext) (s.pc + 3) s t ∧ t.pc = ext ∧
      t.bus = sent s (s.sp - 2) (hi (s.pc + 3)) ++ sent s (s.sp - 1) (lo (s.pc + 3)) ++ s.bus) ∧
    ∀ k, k < 8 → ∃ t, Pushes (.callv k) (s.pc + 1) s t ∧ t.pc = s.wordAt (0xFFC0#16 + BitVec.ofNat 16 (2 * k)) ∧
      t.bus = sent s (s.sp - 2) (hi (s.pc + 1)) ++ sent s (s.sp - 1) (lo (s.pc + 1)) ++
        (readWord (0xFFC0#16 + BitVec.ofNat 16 (2 * k)) s).2.bus

/-- PUSHW A and PUSHW IX push a word; RET, POPW A and POPW IX take the word at SP and add 2 to SP; none changes a flag
but through a push to 0078H (42_branch R299, 43_other R321 to R324, 20_memory R70). H unchanged is decision D3, the
model's choice (log 25). -/
def Obligations.StackInstructions : Prop :=
  ∀ s : State,
    (∃ t, Pushes .pushwA s.a s t ∧ Advances 1 s t ∧ t.a = s.a ∧ t.ps.low = s.ps.low ∧
      t.bus = sent s (s.sp - 2) s.ah ++ sent s (s.sp - 1) s.al ++ s.bus) ∧
    (∃ t, Pushes .pushwIx s.ix s t ∧ Advances 1 s t ∧ t.ix = s.ix ∧ t.ps.low = s.ps.low ∧
      t.bus = sent s (s.sp - 2) (hi s.ix) ++ sent s (s.sp - 1) (lo s.ix) ++ s.bus) ∧
    (∃ t, exec .ret s = .next t ∧ t.pc = s.wordAt s.sp ∧ t.sp.toNat = (s.sp.toNat + 2) % 65536 ∧ t.ps = s.ps ∧
      t.mem = s.mem ∧ t.a = s.a ∧ t.t = s.t) ∧
    (∃ t, exec .popwA s = .next t ∧ Advances 1 s t ∧ t.a = s.wordAt s.sp ∧ t.sp.toNat = (s.sp.toNat + 2) % 65536 ∧
      t.ps = s.ps ∧ t.mem = s.mem ∧ t.t = s.t) ∧
    ∃ t, exec .popwIx s = .next t ∧ Advances 1 s t ∧ t.ix = s.wordAt s.sp ∧ t.sp.toNat = (s.sp.toNat + 2) % 65536 ∧
      t.ps = s.ps ∧ t.mem = s.mem ∧ t.a = s.a ∧ t.t = s.t

/-- A subroutine entered by CALL or CALLV that returns at once comes back to the instruction after the call, with SP
and every register as before, and PS too where the stack is not at 0078H; for a stack that the machine keeps, in RAM
or at 0078H (42_branch R296, R297, R299, R301). H unchanged is decision D3, the model's choice (log 25). -/
def Obligations.CallThenReturn : Prop :=
  ∀ s : State, s.storesInside (s.sp - 1) = true → s.storesInside (s.sp - 2) = true →
    (∀ ext, ∃ t u, exec (.callExt ext) s = .next t ∧ exec .ret t = .next u ∧ u.pc = s.pc + 3 ∧ u.sp = s.sp ∧
      u.a = s.a ∧ u.t = s.t ∧ u.ix = s.ix ∧ u.ep = s.ep ∧ u.ps.low = s.ps.low ∧
      (s.sp - 1 ≠ mirrorAddr → s.sp - 2 ≠ mirrorAddr → u.ps = s.ps)) ∧
    ∀ k, k < 8 → ∃ t u, exec (.callv k) s = .next t ∧ exec .ret t = .next u ∧ u.pc = s.pc + 1 ∧ u.sp = s.sp ∧
      u.a = s.a ∧ u.t = s.t ∧ u.ix = s.ix ∧ u.ep = s.ep ∧ u.ps.low = s.ps.low ∧
      (s.sp - 1 ≠ mirrorAddr → s.sp - 2 ≠ mirrorAddr → u.ps = s.ps)

/-- RETI pops PS, all 16 bits of it, and then PC, whether or not an interrupt is in progress (42_branch R300). -/
def Obligations.ReturnFromInterrupt : Prop :=
  ∀ s : State, s.readsInside s.sp = true → s.readsInside (s.sp + 1) = true → s.readsInside (s.sp + 2) = true →
    s.readsInside (s.sp + 3) = true →
    ∃ t, exec .reti s = .next t ∧
      t.ps.toWord.toNat = 256 * (s.byteAt s.sp).toNat + (s.byteAt (s.sp + 1)).toNat ∧
      t.pc.toNat = 256 * (s.byteAt (s.sp + 2)).toNat + (s.byteAt (s.sp + 3)).toNat ∧
      t.sp.toNat = (s.sp.toNat + 4) % 65536 ∧ t.a = s.a ∧ t.t = s.t ∧ t.ix = s.ix ∧ t.ep = s.ep ∧ t.mem = s.mem ∧
      t.bus = s.bus

/-! ## Other instructions -/

/-- NOP, CLRC, SETC, CLRI and SETI change PC and at most the one flag they name (43_other R320, R326 to R330). H
unchanged is decision D3, the model's choice (log 25). -/
def Obligations.FlagInstructions : Prop :=
  ∀ s : State,
    (∃ t, exec .nop s = .next t ∧ Advances 1 s t ∧ t = s.withPc t.pc) ∧
    (∃ t, exec .clrc s = .next t ∧ Advances 1 s t ∧ t = (s.withPs { s.ps with c := false }).withPc t.pc) ∧
    (∃ t, exec .setc s = .next t ∧ Advances 1 s t ∧ t = (s.withPs { s.ps with c := true }).withPc t.pc) ∧
    (∃ t, exec .clri s = .next t ∧ Advances 1 s t ∧ t = (s.withPs { s.ps with i := false }).withPc t.pc) ∧
    ∃ t, exec .seti s = .next t ∧ Advances 1 s t ∧ t = (s.withPs { s.ps with i := true }).withPc t.pc

/-! ## The step, interrupts and reset -/

/-- A step runs the decoded instruction: where no reset is asserted and the bytes fetched at PC decode to an
instruction, the step moves on to the next boundary, executes the instruction after the fetch, and samples the request
presented at the boundary that ends it (60_exceptions R345, R367). That reset is looked at before the instruction and
not inside it is decision D18 (log 23). -/
def Obligations.StepRunsDecodedInstruction : Prop :=
  ∀ (s : State) (i : Instr) (rest : List Byte), s.boundary.reset = false →
    decode (fetch (s.withInputs s.inputs.tail)).1 = .ok (i, rest) →
    ∃ t, exec i (fetch (s.withInputs s.inputs.tail)).2 = .next t ∧ step s = .next (sampleInterrupt t)

/-- The bytes of an instruction at PC, in memory that the machine answers itself, are what a step executes, whatever
stands after them (20_memory R85, 30_encoding R116, 60_exceptions R367). -/
def Obligations.StepRunsTheBytesAtPc : Prop :=
  ∀ (s : State) (i : Instr), s.boundary.reset = false → i.wellFormed = true →
    (∀ k, k < (encode i).length → s.readsInside (s.pc + BitVec.ofNat 16 k) = true ∧
      (encode i)[k]? = some (s.byteAt (s.pc + BitVec.ofNat 16 k))) →
    ∃ t, exec i (s.withInputs s.inputs.tail) = .next t ∧ step s = .next (sampleInterrupt t)

/-- The model stops at the first byte 44H and nowhere else: every other step gives a next state, and no step gives a
fault (30_encoding R122, 60_exceptions R341; decision D1, log 9). -/
def Obligations.StepStopsOnlyAtTheUnassignedByte : Prop :=
  ∀ s : State,
    (s.boundary.reset = false ∧ s.byteAt s.pc = 0x44#8 → step s = .refused (.undefinedOpcode 0x44#8)) ∧
    (s.boundary.reset = true ∨ s.byteAt s.pc ≠ 0x44#8 → ∃ t, step s = .next t)

/-- Every step moves on by one boundary of the inputs and leaves the product's parameters (60_exceptions R345, 00_scope
R9; logs 3 and 6). -/
def Obligations.StepConsumesOneBoundary : Prop :=
  ∀ s t : State, step s = .next t → t.inputs = s.inputs.tail ∧ t.product = s.product

/-- Every step keeps the invariant, from every state that has it: memory keeps its canonical form, no cell stands
behind 0078H, and cells stand only where the product has RAM or ROM (20_memory R78, R79). The canonical form is the
model's choice (log 1); that no cell stands behind 0078H is decision D11 (log 18); that a cell stands only at RAM or
ROM is decision D6, with what the model does for writes to ROM and for unpopulated addresses (log 5). -/
def Obligations.EveryStepKeepsTheInvariant : Prop :=
  ∀ s t : State, s.inv = true → step s = .next t → t.inv = true

/-- The state after reset has the invariant. The canonical form (log 1), the empty memory of `State.reset` (logs 1 and
2), its empty map, all RAM (log 3), and that no cell stands behind 0078H (decision D11, log 18) are the model's
choices. -/
def Obligations.ResetHasTheInvariant : Prop := State.reset.inv = true

/-- The values reset leaves in the registers (10_state R44, 70_reset R382): PC is the word at the reset vector. That the
vector reads 0000H in the memory of `State.reset` is the model's choice (log 1) and is not stated. -/
def Obligations.ResetValues : Prop :=
  State.reset.a = 0x0000#16 ∧ State.reset.t = 0x0000#16 ∧ State.reset.ix = 0x0000#16 ∧ State.reset.ep = 0x0000#16 ∧
  State.reset.sp = 0x0000#16 ∧ State.reset.ps.toWord = 0x0030#16 ∧ State.reset.ps.rp = 0#5 ∧ State.reset.ps.dp = 0#3 ∧
  State.reset.ps.i = false ∧ State.reset.ps.il = 3#2 ∧ State.reset.pc = State.reset.wordAt 0xFFFE#16 ∧
  State.reset.byteAt 0x0078#16 = 0x00#8

/-- A step at a boundary with reset asserted runs the reset sequence, whatever else is presented: the registers take
their reset values, PC the word at FFFEH, memory keeps every byte, and no interrupt is entered (70_reset R381, R383,
60_exceptions R352; decisions D10 and D18, logs 22 and 23). -/
def Obligations.ResetStep : Prop :=
  ∀ s : State, s.boundary.reset = true →
    ∃ t, step s = .next t ∧ t.a = 0x0000#16 ∧ t.t = 0x0000#16 ∧ t.ix = 0x0000#16 ∧ t.ep = 0x0000#16 ∧
      t.sp = 0x0000#16 ∧ t.ps.toWord = 0x0030#16 ∧ t.mem = s.mem ∧ t.inputs = s.inputs.tail ∧
      (s.readsInside 0xFFFD#16 = true → s.readsInside 0xFFFE#16 = true → s.readsInside 0xFFFF#16 = true →
        t.bus = s.bus ∧ t.pc.toNat = 256 * (s.byteAt 0xFFFE#16).toNat + (s.byteAt 0xFFFF#16).toNat)

/-- The acceptance of a request presented at the boundary that ends an instruction: exactly when its level is below IL
and I is 1, for a number that exists; so never with IL = 0, never at level 3, never with I = 0; otherwise nothing
changes. Where reset is asserted there too, or nothing is presented, no interrupt is entered (60_exceptions R346,
R347, R352; decisions D13, D15 and D18, logs 7, 8, 19 and 23). -/
def Obligations.InterruptAcceptance : Prop :=
  (∀ (r : Request) (s : State), s.boundary = { reset := false, irq := some r } →
    (r.number < s.product.nIrq.val → r.level.toNat < s.ps.il.toNat → s.ps.i = true →
      sampleInterrupt s = enterInterrupt r s) ∧
    (s.ps.i = false ∨ s.ps.il = 0#2 ∨ r.level = 3#2 ∨ s.ps.il.toNat ≤ r.level.toNat → sampleInterrupt s = s)) ∧
  ∀ s : State, s.boundary.reset = true ∨ s.boundary.irq = none → sampleInterrupt s = s

/-- Interrupt entry: the frame below SP holds PS and the return address, PC takes the vector's word as it was before
the frame was written, IL the level; I and the other flags, A, T, IX, EP and every byte outside the frame are
unchanged, RP and DP unless the frame meets 0078H (60_exceptions R350, R351, R353 to R355; decision D4, log 16; where
the frame meets 0078H, log 15). -/
def Obligations.InterruptEntry : Prop :=
  ∀ (r : Request) (s : State), (∀ a ∈ entryFrame s, s.storesInside a = true) →
    s.readsInside (irqVector r.number) = true → s.readsInside (irqVector r.number + 1) = true →
    (enterInterrupt r s).sp = s.sp - 4 ∧
    ((enterInterrupt r s).wordAt (s.sp - 4)) = s.ps.toWord ∧
    ((enterInterrupt r s).wordAt (s.sp - 2)) = s.pc ∧
    (enterInterrupt r s).pc.toNat =
      256 * (s.byteAt (irqVector r.number)).toNat + (s.byteAt (irqVector r.number + 1)).toNat ∧
    (enterInterrupt r s).ps.il = r.level ∧ (enterInterrupt r s).ps.i = s.ps.i ∧
    (enterInterrupt r s).ps.h = s.ps.h ∧ (enterInterrupt r s).ps.n = s.ps.n ∧ (enterInterrupt r s).ps.z = s.ps.z ∧
    (enterInterrupt r s).ps.v = s.ps.v ∧ (enterInterrupt r s).ps.c = s.ps.c ∧
    (mirrorAddr ∉ entryFrame s → (enterInterrupt r s).ps.rp = s.ps.rp ∧ (enterInterrupt r s).ps.dp = s.ps.dp) ∧
    (enterInterrupt r s).a = s.a ∧ (enterInterrupt r s).t = s.t ∧ (enterInterrupt r s).ix = s.ix ∧
    (enterInterrupt r s).ep = s.ep ∧ (enterInterrupt r s).bus = s.bus ∧
    ∀ b, b ∉ entryFrame s → s.readsInside b = true → (enterInterrupt r s).byteAt b = s.byteAt b

/-- RETI undoes interrupt entry: executed in the state that entry leaves, it restores PC, all of PS and SP, with A, T,
IX, EP and every byte outside the frame as before, for a frame that the machine keeps (42_branch R300, 60_exceptions
R350, R353, R357). That this holds of RP and DP where the frame meets 0078H rests on which PS entry saves there (log
15, DEDUCED). -/
def Obligations.EntryThenReturn : Prop :=
  ∀ (r : Request) (s : State), (∀ a ∈ entryFrame s, s.storesInside a = true) →
    ∃ u, exec .reti (enterInterrupt r s) = .next u ∧ u.pc = s.pc ∧ u.ps = s.ps ∧ u.sp = s.sp ∧ u.a = s.a ∧ u.t = s.t ∧
      u.ix = s.ix ∧ u.ep = s.ep ∧ ∀ b, b ∉ entryFrame s → s.readsInside b = true → u.byteAt b = s.byteAt b

/-- IL changes only by reset, which sets it to 3, by RETI, by MOVW PS,A, and by interrupt entry, which sets it to the
accepted level: where no reset is asserted and the instruction is neither RETI nor MOVW PS,A, it leaves IL, and the
step ends in the entry for a request presented at the boundary that ends it, with I = 1 and a level below IL (43_other
R331, 60_exceptions R345, R346, R350, R352). The model's choices in it: the number of the request exists (decision
D15, log 8), I and IL are those after the instruction (decision D13, log 19), and no reset is asserted at the boundary
of the entry (decision D18, logs 7 and 23). -/
def Obligations.OnlyFourEventsChangeIl : Prop :=
  ∀ s t : State, step s = .next t → t.ps.il ≠ s.ps.il →
    (s.boundary.reset = true ∧ t.ps.il = 3#2) ∨
    (s.boundary.reset = false ∧ ∃ i rest, decode (fetch (s.withInputs s.inputs.tail)).1 = .ok (i, rest) ∧
      (i = .reti ∨ i = .movwPsA)) ∨
    (s.boundary.reset = false ∧ ∃ i rest u r, decode (fetch (s.withInputs s.inputs.tail)).1 = .ok (i, rest) ∧
      exec i (fetch (s.withInputs s.inputs.tail)).2 = .next u ∧ u.ps.il = s.ps.il ∧
      u.boundary = { reset := false, irq := some r } ∧ u.accepts r = true ∧ u.ps.i = true ∧
      r.level.toNat < u.ps.il.toNat ∧ t = enterInterrupt r u ∧ t.ps.il = r.level)

/-- With I = 0 no instruction is interrupted: from such a state a step either runs an instruction that can set I
(SETI, MOVW PS,A, RETI) or ends where that instruction ends (60_exceptions R346, R347; 10_state R33). That I is the
one after the instruction is decision D13, the model's choice (log 19). -/
def Obligations.MaskedStepsRunUninterrupted : Prop :=
  ∀ (s : State) (i : Instr) (rest : List Byte), s.boundary.reset = false → s.ps.i = false →
    decode (fetch (s.withInputs s.inputs.tail)).1 = .ok (i, rest) → i ≠ .seti → i ≠ .movwPsA → i ≠ .reti →
    ∃ t, exec i (fetch (s.withInputs s.inputs.tail)).2 = .next t ∧ step s = .next t ∧ t.ps.i = false

end
end

