-- ==== Sys2Proof/Laws/Memory.lean ====
section
/-! SUPPORT. The memory list: what a read returns after each operation, and that each operation keeps the canonical
form. The read laws hold of any list, canonical or not. -/

namespace Sys2Proof.Machine

/-! ## Reads -/

@[simp] theorem Memory.read_nil (a : Nat) : Memory.read [] a = unlisted := rfl

theorem Memory.read_cons (k : Nat) (v : Byte) (m : Memory) (a : Nat) :
    Memory.read ((k, v) :: m) a = if a = k then v else Memory.read m a := rfl

theorem Memory.read_insert (m : Memory) (a : Nat) (v : Byte) (b : Nat) :
    (m.insert a v).read b = if b = a then v else m.read b := by
  induction m with
  | nil => simp [Memory.insert, Memory.read]
  | cons cell m ih =>
    obtain ⟨k, w⟩ := cell
    simp only [Memory.insert]
    split
    · simp [Memory.read_cons]
    · split
      · subst a; simp only [Memory.read_cons]; split <;> rfl
      · simp only [Memory.read_cons, ih]
        split <;> split <;> simp_all

theorem Memory.erase_nil (a : Nat) : Memory.erase [] a = [] := rfl

theorem Memory.erase_cons (k : Nat) (w : Byte) (m : Memory) (a : Nat) :
    Memory.erase ((k, w) :: m) a = if k = a then m.erase a else (k, w) :: m.erase a := by
  simp only [Memory.erase, List.filter_cons]
  by_cases h : k = a <;> simp [h]

theorem Memory.read_erase (m : Memory) (a b : Nat) :
    (m.erase a).read b = if b = a then unlisted else m.read b := by
  induction m with
  | nil => simp [Memory.erase]
  | cons cell m ih =>
    obtain ⟨k, w⟩ := cell
    rw [Memory.erase_cons]
    split
    · simp only [ih, Memory.read_cons]; split <;> simp_all
    · simp only [Memory.read_cons, ih]; split <;> split <;> simp_all

/-- What a read returns after a write. -/
theorem Memory.read_write (m : Memory) (a : Nat) (v : Byte) (b : Nat) :
    (m.write a v).read b = if b = a then v else m.read b := by
  unfold Memory.write
  split
  · rw [Memory.read_erase]; simp_all
  · rw [Memory.read_insert]

@[simp] theorem Memory.read_write_same (m : Memory) (a : Nat) (v : Byte) : (m.write a v).read a = v := by
  simp [Memory.read_write]

theorem Memory.read_write_other (m : Memory) {a b : Nat} (v : Byte) (h : b ≠ a) : (m.write a v).read b = m.read b := by
  simp [Memory.read_write, h]

/-! ## The cells of a list -/

theorem Memory.mem_insert {m : Memory} {a : Nat} {v : Byte} {cell : Host.Cell} (h : cell ∈ m.insert a v) :
    cell = (a, v) ∨ cell ∈ m := by
  induction m with
  | nil => simpa [Memory.insert] using h
  | cons c m ih =>
    obtain ⟨k, w⟩ := c
    simp only [Memory.insert] at h
    split at h
    · simpa using h
    · split at h <;> simp only [List.mem_cons] at h ⊢
      · tauto
      · rcases h with h | h
        · exact .inr (.inl h)
        · rcases ih h with h | h
          · exact .inl h
          · exact .inr (.inr h)

theorem Memory.mem_write {m : Memory} {a : Nat} {v : Byte} {cell : Host.Cell} (h : cell ∈ m.write a v) :
    cell = (a, v) ∨ cell ∈ m := by
  unfold Memory.write at h
  split at h
  · exact .inr (List.mem_of_mem_filter h)
  · exact Memory.mem_insert h

/-! ## The canonical form -/

@[simp] theorem Memory.wf_nil : Memory.wf [] = true := rfl

theorem Memory.wf_cons (a : Nat) (v : Byte) (m : Memory) :
    Memory.wf ((a, v) :: m) = true ↔
      (a < 65536 ∧ a ≠ 0x0078 ∧ v ≠ unlisted) ∧ (∀ cell ∈ m.head?, a < cell.1) ∧ Memory.wf m = true := by
  cases m with
  | nil => simp [Memory.wf, and_assoc]
  | cons cell m => obtain ⟨b, w⟩ := cell; simp [Memory.wf, and_assoc]

/-- In a canonical list every address is above that of the head. -/
theorem Memory.wf_lt {a : Nat} {v : Byte} {m : Memory} (h : Memory.wf ((a, v) :: m) = true) :
    ∀ cell ∈ m, a < cell.1 := by
  induction m generalizing a v with
  | nil => simp
  | cons c m ih =>
    obtain ⟨b, w⟩ := c
    obtain ⟨-, h1, h2⟩ := (Memory.wf_cons a v _).1 h
    have hab : a < b := h1 (b, w) (by simp)
    intro cell hc
    rcases List.mem_cons.1 hc with rfl | hc
    · exact hab
    · exact Nat.lt_trans hab (ih h2 cell hc)

/-- Below its head a canonical list holds nothing. -/
theorem Memory.read_of_lt {m : Memory} {a : Nat} (h : ∀ cell ∈ m, a < cell.1) : m.read a = unlisted := by
  induction m with
  | nil => rfl
  | cons c m ih =>
    obtain ⟨k, w⟩ := c
    have hk : a < k := h (k, w) (by simp)
    rw [Memory.read_cons, if_neg (by omega)]
    exact ih fun cell hc => h cell (by simp [hc])

theorem Memory.head_insert {m : Memory} {a : Nat} {v : Byte} {cell : Host.Cell} (h : cell ∈ (m.insert a v).head?) :
    cell.1 = a ∨ ∃ c ∈ m.head?, c.1 = cell.1 := by
  cases m with
  | nil => left; simp [Memory.insert] at h; simp [← h]
  | cons c m =>
    obtain ⟨k, w⟩ := c
    simp only [Memory.insert] at h
    split at h
    · left; simp at h; simp [← h]
    · split at h
      · left; simp at h; simp [← h]
      · right; simp at h; simp [← h]

theorem Memory.wf_insert {m : Memory} {a : Nat} {v : Byte} (hm : m.wf = true) (ha : a < 65536) (h78 : a ≠ 0x0078)
    (hv : v ≠ unlisted) : (m.insert a v).wf = true := by
  induction m with
  | nil => simp [Memory.insert, Memory.wf, ha, h78, hv]
  | cons c m ih =>
    obtain ⟨k, w⟩ := c
    obtain ⟨hc, hh, hw⟩ := (Memory.wf_cons k w m).1 hm
    simp only [Memory.insert]
    split
    · exact (Memory.wf_cons _ _ _).2 ⟨⟨ha, h78, hv⟩, by simpa using ‹a < k›, hm⟩
    · split
      · exact (Memory.wf_cons _ _ _).2 ⟨⟨ha, h78, hv⟩, by subst a; exact hh, hw⟩
      · refine (Memory.wf_cons _ _ _).2 ⟨hc, fun cell hcell => ?_, ih hw⟩
        rcases Memory.head_insert hcell with h | ⟨d, hd, h⟩
        · omega
        · exact h ▸ hh d hd

theorem Memory.wf_erase {m : Memory} (a : Nat) (hm : m.wf = true) : (m.erase a).wf = true := by
  induction m with
  | nil => rfl
  | cons c m ih =>
    obtain ⟨k, w⟩ := c
    obtain ⟨hc, -, hw⟩ := (Memory.wf_cons k w m).1 hm
    rw [Memory.erase_cons]
    split
    · exact ih hw
    · refine (Memory.wf_cons _ _ _).2 ⟨hc, fun cell hcell => ?_, ih hw⟩
      exact Memory.wf_lt hm cell (List.mem_of_mem_filter (List.mem_of_mem_head? hcell))

/-- A write to an address of the space other than 0078H keeps the canonical form. -/
theorem Memory.wf_write {m : Memory} {a : Nat} (v : Byte) (hm : m.wf = true) (ha : a < 65536) (h78 : a ≠ 0x0078) :
    (m.write a v).wf = true := by
  unfold Memory.write
  split
  · exact Memory.wf_erase a hm
  · exact Memory.wf_insert hm ha h78 ‹_›

/-- Reset's memory lists nothing. -/
theorem State.reset_mem : State.reset.mem = [] := rfl

theorem State.reset_mem_wf : State.reset.mem.wf = true := rfl

end Sys2Proof.Machine
end

