-- ==== Sys2Proof/Laws/State.lean ====
section
/-! SUPPORT. What every one-field update of State leaves of every field: one lemma per field per update, true by `rfl`
(for `withAl` and `withTl` by the laws of `join`), so that no proof unfolds a record update. -/

namespace Sys2Proof

/-! ## Halves of a word -/

@[simp] theorem hi_join (h l : Byte) : hi (join h l) = h := by
  apply BitVec.eq_of_toNat_eq
  simp only [hi, join, BitVec.extractLsb'_toNat, BitVec.toNat_append]
  have := l.isLt
  have := h.isLt
  rw [← Nat.shiftLeft_add_eq_or_of_lt l.isLt, Nat.shiftLeft_eq, Nat.shiftRight_eq_div_pow]
  omega

@[simp] theorem lo_join (h l : Byte) : lo (join h l) = l := by
  apply BitVec.eq_of_toNat_eq
  simp only [lo, join, BitVec.extractLsb'_toNat, BitVec.toNat_append]
  have := l.isLt
  rw [← Nat.shiftLeft_add_eq_or_of_lt l.isLt, Nat.shiftLeft_eq, Nat.shiftRight_zero]
  omega

theorem join_toNat (h l : Byte) : (join h l).toNat = 256 * h.toNat + l.toNat := by
  simp only [join, BitVec.toNat_append]
  rw [← Nat.shiftLeft_add_eq_or_of_lt l.isLt, Nat.shiftLeft_eq]
  omega

theorem hi_toNat (w : Word) : (hi w).toNat = w.toNat / 256 := by
  have := w.isLt
  simp only [hi, BitVec.extractLsb'_toNat, Nat.shiftRight_eq_div_pow]
  omega

theorem lo_toNat (w : Word) : (lo w).toNat = w.toNat % 256 := by
  simp only [lo, BitVec.extractLsb'_toNat, Nat.shiftRight_zero]

@[simp] theorem join_hi_lo (w : Word) : join (hi w) (lo w) = w := by
  apply BitVec.eq_of_toNat_eq
  rw [join_toNat, hi_toNat, lo_toNat]
  omega

/-- Two words with the same halves are the same word. -/
theorem word_ext {v w : Word} (h : hi v = hi w) (l : lo v = lo w) : v = w := by
  rw [← join_hi_lo v, ← join_hi_lo w, h, l]

namespace Machine


/-! ## `withPc` -/

@[simp] theorem State.withPc_pc (x : Word) (s : State) : (s.withPc x).pc = x := rfl
@[simp] theorem State.withPc_a (x : Word) (s : State) : (s.withPc x).a = s.a := rfl
@[simp] theorem State.withPc_t (x : Word) (s : State) : (s.withPc x).t = s.t := rfl
@[simp] theorem State.withPc_ix (x : Word) (s : State) : (s.withPc x).ix = s.ix := rfl
@[simp] theorem State.withPc_ep (x : Word) (s : State) : (s.withPc x).ep = s.ep := rfl
@[simp] theorem State.withPc_sp (x : Word) (s : State) : (s.withPc x).sp = s.sp := rfl
@[simp] theorem State.withPc_ps (x : Word) (s : State) : (s.withPc x).ps = s.ps := rfl
@[simp] theorem State.withPc_mem (x : Word) (s : State) : (s.withPc x).mem = s.mem := rfl
@[simp] theorem State.withPc_product (x : Word) (s : State) : (s.withPc x).product = s.product := rfl
@[simp] theorem State.withPc_inputs (x : Word) (s : State) : (s.withPc x).inputs = s.inputs := rfl
@[simp] theorem State.withPc_bus (x : Word) (s : State) : (s.withPc x).bus = s.bus := rfl
@[simp] theorem State.withPc_free (x : Word) (s : State) : (s.withPc x).free = s.free := rfl
@[simp] theorem State.withPc_ah (x : Word) (s : State) : (s.withPc x).ah = s.ah := rfl
@[simp] theorem State.withPc_al (x : Word) (s : State) : (s.withPc x).al = s.al := rfl
@[simp] theorem State.withPc_th (x : Word) (s : State) : (s.withPc x).th = s.th := rfl
@[simp] theorem State.withPc_tl (x : Word) (s : State) : (s.withPc x).tl = s.tl := rfl
@[simp] theorem State.withPc_kindAt (x : Word) (s : State) (b : Word) :
    (s.withPc x).kindAt b = s.kindAt b := rfl
@[simp] theorem State.withPc_boundary (x : Word) (s : State) : (s.withPc x).boundary = s.boundary := rfl

/-! ## `withA` -/

@[simp] theorem State.withA_pc (x : Word) (s : State) : (s.withA x).pc = s.pc := rfl
@[simp] theorem State.withA_a (x : Word) (s : State) : (s.withA x).a = x := rfl
@[simp] theorem State.withA_t (x : Word) (s : State) : (s.withA x).t = s.t := rfl
@[simp] theorem State.withA_ix (x : Word) (s : State) : (s.withA x).ix = s.ix := rfl
@[simp] theorem State.withA_ep (x : Word) (s : State) : (s.withA x).ep = s.ep := rfl
@[simp] theorem State.withA_sp (x : Word) (s : State) : (s.withA x).sp = s.sp := rfl
@[simp] theorem State.withA_ps (x : Word) (s : State) : (s.withA x).ps = s.ps := rfl
@[simp] theorem State.withA_mem (x : Word) (s : State) : (s.withA x).mem = s.mem := rfl
@[simp] theorem State.withA_product (x : Word) (s : State) : (s.withA x).product = s.product := rfl
@[simp] theorem State.withA_inputs (x : Word) (s : State) : (s.withA x).inputs = s.inputs := rfl
@[simp] theorem State.withA_bus (x : Word) (s : State) : (s.withA x).bus = s.bus := rfl
@[simp] theorem State.withA_free (x : Word) (s : State) : (s.withA x).free = s.free := rfl
@[simp] theorem State.withA_ah (x : Word) (s : State) : (s.withA x).ah = hi x := rfl
@[simp] theorem State.withA_al (x : Word) (s : State) : (s.withA x).al = lo x := rfl
@[simp] theorem State.withA_th (x : Word) (s : State) : (s.withA x).th = s.th := rfl
@[simp] theorem State.withA_tl (x : Word) (s : State) : (s.withA x).tl = s.tl := rfl
@[simp] theorem State.withA_kindAt (x : Word) (s : State) (b : Word) :
    (s.withA x).kindAt b = s.kindAt b := rfl
@[simp] theorem State.withA_boundary (x : Word) (s : State) : (s.withA x).boundary = s.boundary := rfl
@[simp] theorem State.withA_nextPC (x : Word) (s : State) (n : Nat) :
    (s.withA x).nextPC n = s.nextPC n := rfl

/-! ## `withT` -/

@[simp] theorem State.withT_pc (x : Word) (s : State) : (s.withT x).pc = s.pc := rfl
@[simp] theorem State.withT_a (x : Word) (s : State) : (s.withT x).a = s.a := rfl
@[simp] theorem State.withT_t (x : Word) (s : State) : (s.withT x).t = x := rfl
@[simp] theorem State.withT_ix (x : Word) (s : State) : (s.withT x).ix = s.ix := rfl
@[simp] theorem State.withT_ep (x : Word) (s : State) : (s.withT x).ep = s.ep := rfl
@[simp] theorem State.withT_sp (x : Word) (s : State) : (s.withT x).sp = s.sp := rfl
@[simp] theorem State.withT_ps (x : Word) (s : State) : (s.withT x).ps = s.ps := rfl
@[simp] theorem State.withT_mem (x : Word) (s : State) : (s.withT x).mem = s.mem := rfl
@[simp] theorem State.withT_product (x : Word) (s : State) : (s.withT x).product = s.product := rfl
@[simp] theorem State.withT_inputs (x : Word) (s : State) : (s.withT x).inputs = s.inputs := rfl
@[simp] theorem State.withT_bus (x : Word) (s : State) : (s.withT x).bus = s.bus := rfl
@[simp] theorem State.withT_free (x : Word) (s : State) : (s.withT x).free = s.free := rfl
@[simp] theorem State.withT_ah (x : Word) (s : State) : (s.withT x).ah = s.ah := rfl
@[simp] theorem State.withT_al (x : Word) (s : State) : (s.withT x).al = s.al := rfl
@[simp] theorem State.withT_th (x : Word) (s : State) : (s.withT x).th = hi x := rfl
@[simp] theorem State.withT_tl (x : Word) (s : State) : (s.withT x).tl = lo x := rfl
@[simp] theorem State.withT_kindAt (x : Word) (s : State) (b : Word) :
    (s.withT x).kindAt b = s.kindAt b := rfl
@[simp] theorem State.withT_boundary (x : Word) (s : State) : (s.withT x).boundary = s.boundary := rfl
@[simp] theorem State.withT_nextPC (x : Word) (s : State) (n : Nat) :
    (s.withT x).nextPC n = s.nextPC n := rfl

/-! ## `withIx` -/

@[simp] theorem State.withIx_pc (x : Word) (s : State) : (s.withIx x).pc = s.pc := rfl
@[simp] theorem State.withIx_a (x : Word) (s : State) : (s.withIx x).a = s.a := rfl
@[simp] theorem State.withIx_t (x : Word) (s : State) : (s.withIx x).t = s.t := rfl
@[simp] theorem State.withIx_ix (x : Word) (s : State) : (s.withIx x).ix = x := rfl
@[simp] theorem State.withIx_ep (x : Word) (s : State) : (s.withIx x).ep = s.ep := rfl
@[simp] theorem State.withIx_sp (x : Word) (s : State) : (s.withIx x).sp = s.sp := rfl
@[simp] theorem State.withIx_ps (x : Word) (s : State) : (s.withIx x).ps = s.ps := rfl
@[simp] theorem State.withIx_mem (x : Word) (s : State) : (s.withIx x).mem = s.mem := rfl
@[simp] theorem State.withIx_product (x : Word) (s : State) : (s.withIx x).product = s.product := rfl
@[simp] theorem State.withIx_inputs (x : Word) (s : State) : (s.withIx x).inputs = s.inputs := rfl
@[simp] theorem State.withIx_bus (x : Word) (s : State) : (s.withIx x).bus = s.bus := rfl
@[simp] theorem State.withIx_free (x : Word) (s : State) : (s.withIx x).free = s.free := rfl
@[simp] theorem State.withIx_ah (x : Word) (s : State) : (s.withIx x).ah = s.ah := rfl
@[simp] theorem State.withIx_al (x : Word) (s : State) : (s.withIx x).al = s.al := rfl
@[simp] theorem State.withIx_th (x : Word) (s : State) : (s.withIx x).th = s.th := rfl
@[simp] theorem State.withIx_tl (x : Word) (s : State) : (s.withIx x).tl = s.tl := rfl
@[simp] theorem State.withIx_kindAt (x : Word) (s : State) (b : Word) :
    (s.withIx x).kindAt b = s.kindAt b := rfl
@[simp] theorem State.withIx_boundary (x : Word) (s : State) : (s.withIx x).boundary = s.boundary := rfl
@[simp] theorem State.withIx_nextPC (x : Word) (s : State) (n : Nat) :
    (s.withIx x).nextPC n = s.nextPC n := rfl

/-! ## `withEp` -/

@[simp] theorem State.withEp_pc (x : Word) (s : State) : (s.withEp x).pc = s.pc := rfl
@[simp] theorem State.withEp_a (x : Word) (s : State) : (s.withEp x).a = s.a := rfl
@[simp] theorem State.withEp_t (x : Word) (s : State) : (s.withEp x).t = s.t := rfl
@[simp] theorem State.withEp_ix (x : Word) (s : State) : (s.withEp x).ix = s.ix := rfl
@[simp] theorem State.withEp_ep (x : Word) (s : State) : (s.withEp x).ep = x := rfl
@[simp] theorem State.withEp_sp (x : Word) (s : State) : (s.withEp x).sp = s.sp := rfl
@[simp] theorem State.withEp_ps (x : Word) (s : State) : (s.withEp x).ps = s.ps := rfl
@[simp] theorem State.withEp_mem (x : Word) (s : State) : (s.withEp x).mem = s.mem := rfl
@[simp] theorem State.withEp_product (x : Word) (s : State) : (s.withEp x).product = s.product := rfl
@[simp] theorem State.withEp_inputs (x : Word) (s : State) : (s.withEp x).inputs = s.inputs := rfl
@[simp] theorem State.withEp_bus (x : Word) (s : State) : (s.withEp x).bus = s.bus := rfl
@[simp] theorem State.withEp_free (x : Word) (s : State) : (s.withEp x).free = s.free := rfl
@[simp] theorem State.withEp_ah (x : Word) (s : State) : (s.withEp x).ah = s.ah := rfl
@[simp] theorem State.withEp_al (x : Word) (s : State) : (s.withEp x).al = s.al := rfl
@[simp] theorem State.withEp_th (x : Word) (s : State) : (s.withEp x).th = s.th := rfl
@[simp] theorem State.withEp_tl (x : Word) (s : State) : (s.withEp x).tl = s.tl := rfl
@[simp] theorem State.withEp_kindAt (x : Word) (s : State) (b : Word) :
    (s.withEp x).kindAt b = s.kindAt b := rfl
@[simp] theorem State.withEp_boundary (x : Word) (s : State) : (s.withEp x).boundary = s.boundary := rfl
@[simp] theorem State.withEp_nextPC (x : Word) (s : State) (n : Nat) :
    (s.withEp x).nextPC n = s.nextPC n := rfl

/-! ## `withSp` -/

@[simp] theorem State.withSp_pc (x : Word) (s : State) : (s.withSp x).pc = s.pc := rfl
@[simp] theorem State.withSp_a (x : Word) (s : State) : (s.withSp x).a = s.a := rfl
@[simp] theorem State.withSp_t (x : Word) (s : State) : (s.withSp x).t = s.t := rfl
@[simp] theorem State.withSp_ix (x : Word) (s : State) : (s.withSp x).ix = s.ix := rfl
@[simp] theorem State.withSp_ep (x : Word) (s : State) : (s.withSp x).ep = s.ep := rfl
@[simp] theorem State.withSp_sp (x : Word) (s : State) : (s.withSp x).sp = x := rfl
@[simp] theorem State.withSp_ps (x : Word) (s : State) : (s.withSp x).ps = s.ps := rfl
@[simp] theorem State.withSp_mem (x : Word) (s : State) : (s.withSp x).mem = s.mem := rfl
@[simp] theorem State.withSp_product (x : Word) (s : State) : (s.withSp x).product = s.product := rfl
@[simp] theorem State.withSp_inputs (x : Word) (s : State) : (s.withSp x).inputs = s.inputs := rfl
@[simp] theorem State.withSp_bus (x : Word) (s : State) : (s.withSp x).bus = s.bus := rfl
@[simp] theorem State.withSp_free (x : Word) (s : State) : (s.withSp x).free = s.free := rfl
@[simp] theorem State.withSp_ah (x : Word) (s : State) : (s.withSp x).ah = s.ah := rfl
@[simp] theorem State.withSp_al (x : Word) (s : State) : (s.withSp x).al = s.al := rfl
@[simp] theorem State.withSp_th (x : Word) (s : State) : (s.withSp x).th = s.th := rfl
@[simp] theorem State.withSp_tl (x : Word) (s : State) : (s.withSp x).tl = s.tl := rfl
@[simp] theorem State.withSp_kindAt (x : Word) (s : State) (b : Word) :
    (s.withSp x).kindAt b = s.kindAt b := rfl
@[simp] theorem State.withSp_boundary (x : Word) (s : State) : (s.withSp x).boundary = s.boundary := rfl
@[simp] theorem State.withSp_nextPC (x : Word) (s : State) (n : Nat) :
    (s.withSp x).nextPC n = s.nextPC n := rfl

/-! ## `withPs` -/

@[simp] theorem State.withPs_pc (x : Status) (s : State) : (s.withPs x).pc = s.pc := rfl
@[simp] theorem State.withPs_a (x : Status) (s : State) : (s.withPs x).a = s.a := rfl
@[simp] theorem State.withPs_t (x : Status) (s : State) : (s.withPs x).t = s.t := rfl
@[simp] theorem State.withPs_ix (x : Status) (s : State) : (s.withPs x).ix = s.ix := rfl
@[simp] theorem State.withPs_ep (x : Status) (s : State) : (s.withPs x).ep = s.ep := rfl
@[simp] theorem State.withPs_sp (x : Status) (s : State) : (s.withPs x).sp = s.sp := rfl
@[simp] theorem State.withPs_ps (x : Status) (s : State) : (s.withPs x).ps = x := rfl
@[simp] theorem State.withPs_mem (x : Status) (s : State) : (s.withPs x).mem = s.mem := rfl
@[simp] theorem State.withPs_product (x : Status) (s : State) : (s.withPs x).product = s.product := rfl
@[simp] theorem State.withPs_inputs (x : Status) (s : State) : (s.withPs x).inputs = s.inputs := rfl
@[simp] theorem State.withPs_bus (x : Status) (s : State) : (s.withPs x).bus = s.bus := rfl
@[simp] theorem State.withPs_free (x : Status) (s : State) : (s.withPs x).free = s.free := rfl
@[simp] theorem State.withPs_ah (x : Status) (s : State) : (s.withPs x).ah = s.ah := rfl
@[simp] theorem State.withPs_al (x : Status) (s : State) : (s.withPs x).al = s.al := rfl
@[simp] theorem State.withPs_th (x : Status) (s : State) : (s.withPs x).th = s.th := rfl
@[simp] theorem State.withPs_tl (x : Status) (s : State) : (s.withPs x).tl = s.tl := rfl
@[simp] theorem State.withPs_kindAt (x : Status) (s : State) (b : Word) :
    (s.withPs x).kindAt b = s.kindAt b := rfl
@[simp] theorem State.withPs_boundary (x : Status) (s : State) : (s.withPs x).boundary = s.boundary := rfl
@[simp] theorem State.withPs_nextPC (x : Status) (s : State) (n : Nat) :
    (s.withPs x).nextPC n = s.nextPC n := rfl

/-! ## `withMem` -/

@[simp] theorem State.withMem_pc (x : Memory) (s : State) : (s.withMem x).pc = s.pc := rfl
@[simp] theorem State.withMem_a (x : Memory) (s : State) : (s.withMem x).a = s.a := rfl
@[simp] theorem State.withMem_t (x : Memory) (s : State) : (s.withMem x).t = s.t := rfl
@[simp] theorem State.withMem_ix (x : Memory) (s : State) : (s.withMem x).ix = s.ix := rfl
@[simp] theorem State.withMem_ep (x : Memory) (s : State) : (s.withMem x).ep = s.ep := rfl
@[simp] theorem State.withMem_sp (x : Memory) (s : State) : (s.withMem x).sp = s.sp := rfl
@[simp] theorem State.withMem_ps (x : Memory) (s : State) : (s.withMem x).ps = s.ps := rfl
@[simp] theorem State.withMem_mem (x : Memory) (s : State) : (s.withMem x).mem = x := rfl
@[simp] theorem State.withMem_product (x : Memory) (s : State) : (s.withMem x).product = s.product := rfl
@[simp] theorem State.withMem_inputs (x : Memory) (s : State) : (s.withMem x).inputs = s.inputs := rfl
@[simp] theorem State.withMem_bus (x : Memory) (s : State) : (s.withMem x).bus = s.bus := rfl
@[simp] theorem State.withMem_free (x : Memory) (s : State) : (s.withMem x).free = s.free := rfl
@[simp] theorem State.withMem_ah (x : Memory) (s : State) : (s.withMem x).ah = s.ah := rfl
@[simp] theorem State.withMem_al (x : Memory) (s : State) : (s.withMem x).al = s.al := rfl
@[simp] theorem State.withMem_th (x : Memory) (s : State) : (s.withMem x).th = s.th := rfl
@[simp] theorem State.withMem_tl (x : Memory) (s : State) : (s.withMem x).tl = s.tl := rfl
@[simp] theorem State.withMem_kindAt (x : Memory) (s : State) (b : Word) :
    (s.withMem x).kindAt b = s.kindAt b := rfl
@[simp] theorem State.withMem_boundary (x : Memory) (s : State) : (s.withMem x).boundary = s.boundary := rfl
@[simp] theorem State.withMem_nextPC (x : Memory) (s : State) (n : Nat) :
    (s.withMem x).nextPC n = s.nextPC n := rfl

/-! ## `withProduct` -/

@[simp] theorem State.withProduct_pc (x : Product) (s : State) : (s.withProduct x).pc = s.pc := rfl
@[simp] theorem State.withProduct_a (x : Product) (s : State) : (s.withProduct x).a = s.a := rfl
@[simp] theorem State.withProduct_t (x : Product) (s : State) : (s.withProduct x).t = s.t := rfl
@[simp] theorem State.withProduct_ix (x : Product) (s : State) : (s.withProduct x).ix = s.ix := rfl
@[simp] theorem State.withProduct_ep (x : Product) (s : State) : (s.withProduct x).ep = s.ep := rfl
@[simp] theorem State.withProduct_sp (x : Product) (s : State) : (s.withProduct x).sp = s.sp := rfl
@[simp] theorem State.withProduct_ps (x : Product) (s : State) : (s.withProduct x).ps = s.ps := rfl
@[simp] theorem State.withProduct_mem (x : Product) (s : State) : (s.withProduct x).mem = s.mem := rfl
@[simp] theorem State.withProduct_product (x : Product) (s : State) : (s.withProduct x).product = x := rfl
@[simp] theorem State.withProduct_inputs (x : Product) (s : State) : (s.withProduct x).inputs = s.inputs := rfl
@[simp] theorem State.withProduct_bus (x : Product) (s : State) : (s.withProduct x).bus = s.bus := rfl
@[simp] theorem State.withProduct_free (x : Product) (s : State) : (s.withProduct x).free = s.free := rfl
@[simp] theorem State.withProduct_ah (x : Product) (s : State) : (s.withProduct x).ah = s.ah := rfl
@[simp] theorem State.withProduct_al (x : Product) (s : State) : (s.withProduct x).al = s.al := rfl
@[simp] theorem State.withProduct_th (x : Product) (s : State) : (s.withProduct x).th = s.th := rfl
@[simp] theorem State.withProduct_tl (x : Product) (s : State) : (s.withProduct x).tl = s.tl := rfl
@[simp] theorem State.withProduct_kindAt (x : Product) (s : State) (b : Word) :
    (s.withProduct x).kindAt b = kindIn x.memMap b := rfl
@[simp] theorem State.withProduct_boundary (x : Product) (s : State) : (s.withProduct x).boundary = s.boundary := rfl
@[simp] theorem State.withProduct_nextPC (x : Product) (s : State) (n : Nat) :
    (s.withProduct x).nextPC n = s.nextPC n := rfl

/-! ## `withInputs` -/

@[simp] theorem State.withInputs_pc (x : List Boundary) (s : State) : (s.withInputs x).pc = s.pc := rfl
@[simp] theorem State.withInputs_a (x : List Boundary) (s : State) : (s.withInputs x).a = s.a := rfl
@[simp] theorem State.withInputs_t (x : List Boundary) (s : State) : (s.withInputs x).t = s.t := rfl
@[simp] theorem State.withInputs_ix (x : List Boundary) (s : State) : (s.withInputs x).ix = s.ix := rfl
@[simp] theorem State.withInputs_ep (x : List Boundary) (s : State) : (s.withInputs x).ep = s.ep := rfl
@[simp] theorem State.withInputs_sp (x : List Boundary) (s : State) : (s.withInputs x).sp = s.sp := rfl
@[simp] theorem State.withInputs_ps (x : List Boundary) (s : State) : (s.withInputs x).ps = s.ps := rfl
@[simp] theorem State.withInputs_mem (x : List Boundary) (s : State) : (s.withInputs x).mem = s.mem := rfl
@[simp] theorem State.withInputs_product (x : List Boundary) (s : State) : (s.withInputs x).product = s.product := rfl
@[simp] theorem State.withInputs_inputs (x : List Boundary) (s : State) : (s.withInputs x).inputs = x := rfl
@[simp] theorem State.withInputs_bus (x : List Boundary) (s : State) : (s.withInputs x).bus = s.bus := rfl
@[simp] theorem State.withInputs_free (x : List Boundary) (s : State) : (s.withInputs x).free = s.free := rfl
@[simp] theorem State.withInputs_ah (x : List Boundary) (s : State) : (s.withInputs x).ah = s.ah := rfl
@[simp] theorem State.withInputs_al (x : List Boundary) (s : State) : (s.withInputs x).al = s.al := rfl
@[simp] theorem State.withInputs_th (x : List Boundary) (s : State) : (s.withInputs x).th = s.th := rfl
@[simp] theorem State.withInputs_tl (x : List Boundary) (s : State) : (s.withInputs x).tl = s.tl := rfl
@[simp] theorem State.withInputs_kindAt (x : List Boundary) (s : State) (b : Word) :
    (s.withInputs x).kindAt b = s.kindAt b := rfl
@[simp] theorem State.withInputs_nextPC (x : List Boundary) (s : State) (n : Nat) :
    (s.withInputs x).nextPC n = s.nextPC n := rfl

/-! ## `withBus` -/

@[simp] theorem State.withBus_pc (x : List BusEvent) (s : State) : (s.withBus x).pc = s.pc := rfl
@[simp] theorem State.withBus_a (x : List BusEvent) (s : State) : (s.withBus x).a = s.a := rfl
@[simp] theorem State.withBus_t (x : List BusEvent) (s : State) : (s.withBus x).t = s.t := rfl
@[simp] theorem State.withBus_ix (x : List BusEvent) (s : State) : (s.withBus x).ix = s.ix := rfl
@[simp] theorem State.withBus_ep (x : List BusEvent) (s : State) : (s.withBus x).ep = s.ep := rfl
@[simp] theorem State.withBus_sp (x : List BusEvent) (s : State) : (s.withBus x).sp = s.sp := rfl
@[simp] theorem State.withBus_ps (x : List BusEvent) (s : State) : (s.withBus x).ps = s.ps := rfl
@[simp] theorem State.withBus_mem (x : List BusEvent) (s : State) : (s.withBus x).mem = s.mem := rfl
@[simp] theorem State.withBus_product (x : List BusEvent) (s : State) : (s.withBus x).product = s.product := rfl
@[simp] theorem State.withBus_inputs (x : List BusEvent) (s : State) : (s.withBus x).inputs = s.inputs := rfl
@[simp] theorem State.withBus_bus (x : List BusEvent) (s : State) : (s.withBus x).bus = x := rfl
@[simp] theorem State.withBus_free (x : List BusEvent) (s : State) : (s.withBus x).free = s.free := rfl
@[simp] theorem State.withBus_ah (x : List BusEvent) (s : State) : (s.withBus x).ah = s.ah := rfl
@[simp] theorem State.withBus_al (x : List BusEvent) (s : State) : (s.withBus x).al = s.al := rfl
@[simp] theorem State.withBus_th (x : List BusEvent) (s : State) : (s.withBus x).th = s.th := rfl
@[simp] theorem State.withBus_tl (x : List BusEvent) (s : State) : (s.withBus x).tl = s.tl := rfl
@[simp] theorem State.withBus_kindAt (x : List BusEvent) (s : State) (b : Word) :
    (s.withBus x).kindAt b = s.kindAt b := rfl
@[simp] theorem State.withBus_boundary (x : List BusEvent) (s : State) : (s.withBus x).boundary = s.boundary := rfl
@[simp] theorem State.withBus_nextPC (x : List BusEvent) (s : State) (n : Nat) :
    (s.withBus x).nextPC n = s.nextPC n := rfl

/-! ## `withFree` -/

@[simp] theorem State.withFree_pc (x : Nat) (s : State) : (s.withFree x).pc = s.pc := rfl
@[simp] theorem State.withFree_a (x : Nat) (s : State) : (s.withFree x).a = s.a := rfl
@[simp] theorem State.withFree_t (x : Nat) (s : State) : (s.withFree x).t = s.t := rfl
@[simp] theorem State.withFree_ix (x : Nat) (s : State) : (s.withFree x).ix = s.ix := rfl
@[simp] theorem State.withFree_ep (x : Nat) (s : State) : (s.withFree x).ep = s.ep := rfl
@[simp] theorem State.withFree_sp (x : Nat) (s : State) : (s.withFree x).sp = s.sp := rfl
@[simp] theorem State.withFree_ps (x : Nat) (s : State) : (s.withFree x).ps = s.ps := rfl
@[simp] theorem State.withFree_mem (x : Nat) (s : State) : (s.withFree x).mem = s.mem := rfl
@[simp] theorem State.withFree_product (x : Nat) (s : State) : (s.withFree x).product = s.product := rfl
@[simp] theorem State.withFree_inputs (x : Nat) (s : State) : (s.withFree x).inputs = s.inputs := rfl
@[simp] theorem State.withFree_bus (x : Nat) (s : State) : (s.withFree x).bus = s.bus := rfl
@[simp] theorem State.withFree_free (x : Nat) (s : State) : (s.withFree x).free = x := rfl
@[simp] theorem State.withFree_ah (x : Nat) (s : State) : (s.withFree x).ah = s.ah := rfl
@[simp] theorem State.withFree_al (x : Nat) (s : State) : (s.withFree x).al = s.al := rfl
@[simp] theorem State.withFree_th (x : Nat) (s : State) : (s.withFree x).th = s.th := rfl
@[simp] theorem State.withFree_tl (x : Nat) (s : State) : (s.withFree x).tl = s.tl := rfl
@[simp] theorem State.withFree_kindAt (x : Nat) (s : State) (b : Word) :
    (s.withFree x).kindAt b = s.kindAt b := rfl
@[simp] theorem State.withFree_boundary (x : Nat) (s : State) : (s.withFree x).boundary = s.boundary := rfl
@[simp] theorem State.withFree_nextPC (x : Nat) (s : State) (n : Nat) :
    (s.withFree x).nextPC n = s.nextPC n := rfl

/-! ## `withAl` -/

@[simp] theorem State.withAl_pc (x : Byte) (s : State) : (s.withAl x).pc = s.pc := rfl
@[simp] theorem State.withAl_a (x : Byte) (s : State) : (s.withAl x).a = join s.ah x := rfl
@[simp] theorem State.withAl_t (x : Byte) (s : State) : (s.withAl x).t = s.t := rfl
@[simp] theorem State.withAl_ix (x : Byte) (s : State) : (s.withAl x).ix = s.ix := rfl
@[simp] theorem State.withAl_ep (x : Byte) (s : State) : (s.withAl x).ep = s.ep := rfl
@[simp] theorem State.withAl_sp (x : Byte) (s : State) : (s.withAl x).sp = s.sp := rfl
@[simp] theorem State.withAl_ps (x : Byte) (s : State) : (s.withAl x).ps = s.ps := rfl
@[simp] theorem State.withAl_mem (x : Byte) (s : State) : (s.withAl x).mem = s.mem := rfl
@[simp] theorem State.withAl_product (x : Byte) (s : State) : (s.withAl x).product = s.product := rfl
@[simp] theorem State.withAl_inputs (x : Byte) (s : State) : (s.withAl x).inputs = s.inputs := rfl
@[simp] theorem State.withAl_bus (x : Byte) (s : State) : (s.withAl x).bus = s.bus := rfl
@[simp] theorem State.withAl_free (x : Byte) (s : State) : (s.withAl x).free = s.free := rfl
@[simp] theorem State.withAl_ah (x : Byte) (s : State) : (s.withAl x).ah = s.ah := hi_join _ _
@[simp] theorem State.withAl_al (x : Byte) (s : State) : (s.withAl x).al = x := lo_join _ _
@[simp] theorem State.withAl_th (x : Byte) (s : State) : (s.withAl x).th = s.th := rfl
@[simp] theorem State.withAl_tl (x : Byte) (s : State) : (s.withAl x).tl = s.tl := rfl
@[simp] theorem State.withAl_kindAt (x : Byte) (s : State) (b : Word) : (s.withAl x).kindAt b = s.kindAt b := rfl
@[simp] theorem State.withAl_nextPC (x : Byte) (s : State) (n : Nat) : (s.withAl x).nextPC n = s.nextPC n := rfl
@[simp] theorem State.withAl_boundary (x : Byte) (s : State) : (s.withAl x).boundary = s.boundary := rfl

/-! ## `withTl` -/

@[simp] theorem State.withTl_pc (x : Byte) (s : State) : (s.withTl x).pc = s.pc := rfl
@[simp] theorem State.withTl_a (x : Byte) (s : State) : (s.withTl x).a = s.a := rfl
@[simp] theorem State.withTl_t (x : Byte) (s : State) : (s.withTl x).t = join s.th x := rfl
@[simp] theorem State.withTl_ix (x : Byte) (s : State) : (s.withTl x).ix = s.ix := rfl
@[simp] theorem State.withTl_ep (x : Byte) (s : State) : (s.withTl x).ep = s.ep := rfl
@[simp] theorem State.withTl_sp (x : Byte) (s : State) : (s.withTl x).sp = s.sp := rfl
@[simp] theorem State.withTl_ps (x : Byte) (s : State) : (s.withTl x).ps = s.ps := rfl
@[simp] theorem State.withTl_mem (x : Byte) (s : State) : (s.withTl x).mem = s.mem := rfl
@[simp] theorem State.withTl_product (x : Byte) (s : State) : (s.withTl x).product = s.product := rfl
@[simp] theorem State.withTl_inputs (x : Byte) (s : State) : (s.withTl x).inputs = s.inputs := rfl
@[simp] theorem State.withTl_bus (x : Byte) (s : State) : (s.withTl x).bus = s.bus := rfl
@[simp] theorem State.withTl_free (x : Byte) (s : State) : (s.withTl x).free = s.free := rfl
@[simp] theorem State.withTl_ah (x : Byte) (s : State) : (s.withTl x).ah = s.ah := rfl
@[simp] theorem State.withTl_al (x : Byte) (s : State) : (s.withTl x).al = s.al := rfl
@[simp] theorem State.withTl_th (x : Byte) (s : State) : (s.withTl x).th = s.th := hi_join _ _
@[simp] theorem State.withTl_tl (x : Byte) (s : State) : (s.withTl x).tl = x := lo_join _ _
@[simp] theorem State.withTl_kindAt (x : Byte) (s : State) (b : Word) : (s.withTl x).kindAt b = s.kindAt b := rfl
@[simp] theorem State.withTl_nextPC (x : Byte) (s : State) (n : Nat) : (s.withTl x).nextPC n = s.nextPC n := rfl
@[simp] theorem State.withTl_boundary (x : Byte) (s : State) : (s.withTl x).boundary = s.boundary := rfl

/-! ## `advance` -/

@[simp] theorem State.advance_pc (n : Nat) (s : State) : (s.advance n).pc = s.nextPC n := rfl
@[simp] theorem State.advance_a (n : Nat) (s : State) : (s.advance n).a = s.a := rfl
@[simp] theorem State.advance_t (n : Nat) (s : State) : (s.advance n).t = s.t := rfl
@[simp] theorem State.advance_ix (n : Nat) (s : State) : (s.advance n).ix = s.ix := rfl
@[simp] theorem State.advance_ep (n : Nat) (s : State) : (s.advance n).ep = s.ep := rfl
@[simp] theorem State.advance_sp (n : Nat) (s : State) : (s.advance n).sp = s.sp := rfl
@[simp] theorem State.advance_ps (n : Nat) (s : State) : (s.advance n).ps = s.ps := rfl
@[simp] theorem State.advance_mem (n : Nat) (s : State) : (s.advance n).mem = s.mem := rfl
@[simp] theorem State.advance_product (n : Nat) (s : State) : (s.advance n).product = s.product := rfl
@[simp] theorem State.advance_inputs (n : Nat) (s : State) : (s.advance n).inputs = s.inputs := rfl
@[simp] theorem State.advance_bus (n : Nat) (s : State) : (s.advance n).bus = s.bus := rfl
@[simp] theorem State.advance_free (n : Nat) (s : State) : (s.advance n).free = s.free := rfl
@[simp] theorem State.advance_ah (n : Nat) (s : State) : (s.advance n).ah = s.ah := rfl
@[simp] theorem State.advance_al (n : Nat) (s : State) : (s.advance n).al = s.al := rfl
@[simp] theorem State.advance_th (n : Nat) (s : State) : (s.advance n).th = s.th := rfl
@[simp] theorem State.advance_tl (n : Nat) (s : State) : (s.advance n).tl = s.tl := rfl
@[simp] theorem State.advance_kindAt (n : Nat) (s : State) (b : Word) : (s.advance n).kindAt b = s.kindAt b := rfl
@[simp] theorem State.advance_boundary (n : Nat) (s : State) : (s.advance n).boundary = s.boundary := rfl

/-! ## The end of an instruction -/

/-- `finish` always gives a next state: the state it is given, with PC moved past the instruction. -/
theorem finish_eq (n : Nat) (s : State) : finish n s = .next (s.advance n) := rfl

@[simp] theorem finish_next_iff (n : Nat) (s t : State) : finish n s = .next t ↔ s.advance n = t := by
  simp [finish]

end Machine

end Sys2Proof
end

