-- ==== Sys2Proof/Laws/Ops.lean ====
section
/-! SUPPORT. Each shared operation of Machine/Ops.lean, once: what it answers, which fields it leaves, and what it does
to the byte at an address. -/

namespace Sys2Proof.Machine

/-! ## PS and its upper byte -/

@[simp] theorem Status.withHigh_h (v : Byte) (p : Status) : (p.withHigh v).h = p.h := rfl
@[simp] theorem Status.withHigh_i (v : Byte) (p : Status) : (p.withHigh v).i = p.i := rfl
@[simp] theorem Status.withHigh_il (v : Byte) (p : Status) : (p.withHigh v).il = p.il := rfl
@[simp] theorem Status.withHigh_n (v : Byte) (p : Status) : (p.withHigh v).n = p.n := rfl
@[simp] theorem Status.withHigh_z (v : Byte) (p : Status) : (p.withHigh v).z = p.z := rfl
@[simp] theorem Status.withHigh_v (v : Byte) (p : Status) : (p.withHigh v).v = p.v := rfl
@[simp] theorem Status.withHigh_c (v : Byte) (p : Status) : (p.withHigh v).c = p.c := rfl
@[simp] theorem Status.withHigh_low (v : Byte) (p : Status) : (p.withHigh v).low = p.low := rfl

/-- Splitting a byte after its upper five bits and joining the parts gives the byte back. -/
theorem extract_append_byte (v : Byte) : v.extractLsb' 3 5 ++ v.extractLsb' 0 3 = v := by
  revert v; decide

@[simp] theorem Status.withHigh_high (v : Byte) (p : Status) : (p.withHigh v).high = v := extract_append_byte v

/-! ## Reading a byte -/

/-- Everything a byte read can do: 0078H gives PS[15:8], RAM and ROM give the byte of memory, and every other address
is answered by the environment, which has then seen the access. -/
theorem readByte_cases (rmw : Bool) (a : Word) (s : State) :
    (a = mirrorAddr ∧ readByte rmw a s = (s.ps.high, s)) ∨
    (a ≠ mirrorAddr ∧ (s.kindAt a = .ram ∨ s.kindAt a = .rom) ∧ readByte rmw a s = (s.mem.read a.toNat, s)) ∨
    (a ≠ mirrorAddr ∧ (s.kindAt a = .io ∨ s.kindAt a = .absent) ∧
      readByte rmw a s =
        (Config.busRead s.bus a rmw, s.withBus (.read a rmw (Config.busRead s.bus a rmw) :: s.bus))) := by
  unfold readByte
  by_cases h : a = mirrorAddr
  · simp [h]
  · cases hk : s.kindAt a <;> simp [h, readBus]

/-- A byte read changes at most the record of what the environment has seen. -/
theorem readByte_state (rmw : Bool) (a : Word) (s : State) :
    (readByte rmw a s).2 = s.withBus (readByte rmw a s).2.bus := by
  rcases readByte_cases rmw a s with ⟨-, h⟩ | ⟨-, -, h⟩ | ⟨-, -, h⟩ <;> rw [h] <;> rfl

@[simp] theorem readByte_pc (rmw : Bool) (a : Word) (s : State) : (readByte rmw a s).2.pc = s.pc := by
  rw [readByte_state]; rfl
@[simp] theorem readByte_a (rmw : Bool) (a : Word) (s : State) : (readByte rmw a s).2.a = s.a := by
  rw [readByte_state]; rfl
@[simp] theorem readByte_t (rmw : Bool) (a : Word) (s : State) : (readByte rmw a s).2.t = s.t := by
  rw [readByte_state]; rfl
@[simp] theorem readByte_ix (rmw : Bool) (a : Word) (s : State) : (readByte rmw a s).2.ix = s.ix := by
  rw [readByte_state]; rfl
@[simp] theorem readByte_ep (rmw : Bool) (a : Word) (s : State) : (readByte rmw a s).2.ep = s.ep := by
  rw [readByte_state]; rfl
@[simp] theorem readByte_sp (rmw : Bool) (a : Word) (s : State) : (readByte rmw a s).2.sp = s.sp := by
  rw [readByte_state]; rfl
@[simp] theorem readByte_product (rmw : Bool) (a : Word) (s : State) : (readByte rmw a s).2.product = s.product := by
  rw [readByte_state]; rfl
@[simp] theorem readByte_inputs (rmw : Bool) (a : Word) (s : State) : (readByte rmw a s).2.inputs = s.inputs := by
  rw [readByte_state]; rfl
@[simp] theorem readByte_free (rmw : Bool) (a : Word) (s : State) : (readByte rmw a s).2.free = s.free := by
  rw [readByte_state]; rfl
@[simp] theorem readByte_ps (rmw : Bool) (a : Word) (s : State) : (readByte rmw a s).2.ps = s.ps := by
  rw [readByte_state]; rfl
@[simp] theorem readByte_mem (rmw : Bool) (a : Word) (s : State) : (readByte rmw a s).2.mem = s.mem := by
  rw [readByte_state]; rfl
@[simp] theorem readByte_ah (rmw : Bool) (a : Word) (s : State) : (readByte rmw a s).2.ah = s.ah := by
  rw [readByte_state]; rfl
@[simp] theorem readByte_al (rmw : Bool) (a : Word) (s : State) : (readByte rmw a s).2.al = s.al := by
  rw [readByte_state]; rfl
@[simp] theorem readByte_th (rmw : Bool) (a : Word) (s : State) : (readByte rmw a s).2.th = s.th := by
  rw [readByte_state]; rfl
@[simp] theorem readByte_tl (rmw : Bool) (a : Word) (s : State) : (readByte rmw a s).2.tl = s.tl := by
  rw [readByte_state]; rfl
@[simp] theorem readByte_boundary (rmw : Bool) (a : Word) (s : State) : (readByte rmw a s).2.boundary = s.boundary := by
  rw [readByte_state]; rfl
@[simp] theorem readByte_kindAt (rmw : Bool) (a : Word) (s : State) (b : Word) :
    (readByte rmw a s).2.kindAt b = s.kindAt b := by
  rw [readByte_state]; rfl
@[simp] theorem readByte_nextPC (rmw : Bool) (a : Word) (s : State) (n : Nat) :
    (readByte rmw a s).2.nextPC n = s.nextPC n := by
  rw [readByte_state]; rfl

/-- A read that the machine answers itself changes nothing, and the RMW signal plays no part. -/
theorem readByte_inside (rmw : Bool) {a : Word} {s : State} (h : s.readsInside a = true) :
    readByte rmw a s = (s.byteAt a, s) := by
  unfold State.byteAt
  rcases readByte_cases rmw a s with ⟨ha, h1⟩ | ⟨ha, hk, h1⟩ | ⟨ha, hk, -⟩
  · rw [h1]; simp [readByte, ha]
  · rw [h1]; rcases hk with hk | hk <;> simp [readByte, ha, hk]
  · rcases hk with hk | hk <;> simp [State.readsInside, ha, hk] at h

/-- The byte that a read the machine answers itself returns. -/
theorem byteAt_inside {a : Word} {s : State} (h : s.readsInside a = true) :
    s.byteAt a = if a = mirrorAddr then s.ps.high else s.mem.read a.toNat := by
  unfold State.byteAt
  rcases readByte_cases false a s with ⟨ha, h1⟩ | ⟨ha, -, h1⟩ | ⟨ha, hk, -⟩
  · rw [h1, if_pos ha]
  · rw [h1, if_neg ha]
  · rcases hk with hk | hk <;> simp [State.readsInside, ha, hk] at h

@[simp] theorem byteAt_mirror (s : State) : s.byteAt mirrorAddr = s.ps.high := by
  simp [State.byteAt, readByte]

/-- What an address that a store is kept at, a read finds. -/
theorem readsInside_of_storesInside {a : Word} {s : State} (h : s.storesInside a = true) : s.readsInside a = true := by
  simp only [State.storesInside, State.readsInside, Bool.or_eq_true] at *
  tauto

/-- The byte at an address depends on PS[15:8], memory, the map and what the environment has seen, and on nothing
else. -/
theorem byteAt_congr {s t : State} (hp : t.ps.high = s.ps.high) (hm : t.mem = s.mem) (hk : t.product = s.product)
    (hb : t.bus = s.bus) (a : Word) : t.byteAt a = s.byteAt a := by
  unfold State.byteAt readByte readBus State.kindAt
  simp only [hp, hm, hk, hb]
  split
  · rfl
  · split <;> rfl

/-- Where the machine answers itself, the byte at an address depends on the product, memory and, at 0078H, PS[15:8]. -/
theorem byteAt_inside_congr {s t : State} {b : Word} (h : s.readsInside b = true) (hp : t.product = s.product)
    (hm : t.mem = s.mem) (hh : b = mirrorAddr → t.ps.high = s.ps.high) : t.byteAt b = s.byteAt b := by
  have h' : t.readsInside b = true := by
    rw [← h]; simp only [State.readsInside, State.kindAt, hp]
  rw [byteAt_inside h', byteAt_inside h, hm]
  split
  · exact hh ‹_›
  · rfl

/-! ## Writing a byte -/

/-- Everything a byte write can do: 0078H sets PS[15:8], RAM keeps the byte, and every other address hands it to the
environment. -/
theorem writeByte_cases (a : Word) (v : Byte) (s : State) :
    (a = mirrorAddr ∧ writeByte a v s = s.withPs (s.ps.withHigh v)) ∨
    (a ≠ mirrorAddr ∧ s.kindAt a = .ram ∧ writeByte a v s = s.withMem (s.mem.write a.toNat v)) ∨
    (a ≠ mirrorAddr ∧ s.kindAt a ≠ .ram ∧ writeByte a v s = s.withBus (.write a v :: s.bus)) := by
  unfold writeByte
  by_cases h : a = mirrorAddr
  · simp [h]
  · cases hk : s.kindAt a <;> simp [h]

@[simp] theorem writeByte_pc (a : Word) (v : Byte) (s : State) : (writeByte a v s).pc = s.pc := by
  rcases writeByte_cases a v s with ⟨-, h⟩ | ⟨-, -, h⟩ | ⟨-, -, h⟩ <;> rw [h] <;> rfl
@[simp] theorem writeByte_a (a : Word) (v : Byte) (s : State) : (writeByte a v s).a = s.a := by
  rcases writeByte_cases a v s with ⟨-, h⟩ | ⟨-, -, h⟩ | ⟨-, -, h⟩ <;> rw [h] <;> rfl
@[simp] theorem writeByte_t (a : Word) (v : Byte) (s : State) : (writeByte a v s).t = s.t := by
  rcases writeByte_cases a v s with ⟨-, h⟩ | ⟨-, -, h⟩ | ⟨-, -, h⟩ <;> rw [h] <;> rfl
@[simp] theorem writeByte_ix (a : Word) (v : Byte) (s : State) : (writeByte a v s).ix = s.ix := by
  rcases writeByte_cases a v s with ⟨-, h⟩ | ⟨-, -, h⟩ | ⟨-, -, h⟩ <;> rw [h] <;> rfl
@[simp] theorem writeByte_ep (a : Word) (v : Byte) (s : State) : (writeByte a v s).ep = s.ep := by
  rcases writeByte_cases a v s with ⟨-, h⟩ | ⟨-, -, h⟩ | ⟨-, -, h⟩ <;> rw [h] <;> rfl
@[simp] theorem writeByte_sp (a : Word) (v : Byte) (s : State) : (writeByte a v s).sp = s.sp := by
  rcases writeByte_cases a v s with ⟨-, h⟩ | ⟨-, -, h⟩ | ⟨-, -, h⟩ <;> rw [h] <;> rfl
@[simp] theorem writeByte_product (a : Word) (v : Byte) (s : State) : (writeByte a v s).product = s.product := by
  rcases writeByte_cases a v s with ⟨-, h⟩ | ⟨-, -, h⟩ | ⟨-, -, h⟩ <;> rw [h] <;> rfl
@[simp] theorem writeByte_inputs (a : Word) (v : Byte) (s : State) : (writeByte a v s).inputs = s.inputs := by
  rcases writeByte_cases a v s with ⟨-, h⟩ | ⟨-, -, h⟩ | ⟨-, -, h⟩ <;> rw [h] <;> rfl
@[simp] theorem writeByte_free (a : Word) (v : Byte) (s : State) : (writeByte a v s).free = s.free := by
  rcases writeByte_cases a v s with ⟨-, h⟩ | ⟨-, -, h⟩ | ⟨-, -, h⟩ <;> rw [h] <;> rfl
@[simp] theorem writeByte_ah (a : Word) (v : Byte) (s : State) : (writeByte a v s).ah = s.ah := by
  rcases writeByte_cases a v s with ⟨-, h⟩ | ⟨-, -, h⟩ | ⟨-, -, h⟩ <;> rw [h] <;> rfl
@[simp] theorem writeByte_al (a : Word) (v : Byte) (s : State) : (writeByte a v s).al = s.al := by
  rcases writeByte_cases a v s with ⟨-, h⟩ | ⟨-, -, h⟩ | ⟨-, -, h⟩ <;> rw [h] <;> rfl
@[simp] theorem writeByte_th (a : Word) (v : Byte) (s : State) : (writeByte a v s).th = s.th := by
  rcases writeByte_cases a v s with ⟨-, h⟩ | ⟨-, -, h⟩ | ⟨-, -, h⟩ <;> rw [h] <;> rfl
@[simp] theorem writeByte_tl (a : Word) (v : Byte) (s : State) : (writeByte a v s).tl = s.tl := by
  rcases writeByte_cases a v s with ⟨-, h⟩ | ⟨-, -, h⟩ | ⟨-, -, h⟩ <;> rw [h] <;> rfl
@[simp] theorem writeByte_boundary (a : Word) (v : Byte) (s : State) : (writeByte a v s).boundary = s.boundary := by
  rcases writeByte_cases a v s with ⟨-, h⟩ | ⟨-, -, h⟩ | ⟨-, -, h⟩ <;> rw [h] <;> rfl
@[simp] theorem writeByte_kindAt (a : Word) (v : Byte) (s : State) (b : Word) :
    (writeByte a v s).kindAt b = s.kindAt b := by
  rcases writeByte_cases a v s with ⟨-, h⟩ | ⟨-, -, h⟩ | ⟨-, -, h⟩ <;> rw [h] <;> rfl
@[simp] theorem writeByte_nextPC (a : Word) (v : Byte) (s : State) (n : Nat) :
    (writeByte a v s).nextPC n = s.nextPC n := by
  rcases writeByte_cases a v s with ⟨-, h⟩ | ⟨-, -, h⟩ | ⟨-, -, h⟩ <;> rw [h] <;> rfl
@[simp] theorem writeByte_ps_h (a : Word) (v : Byte) (s : State) : (writeByte a v s).ps.h = s.ps.h := by
  rcases writeByte_cases a v s with ⟨-, h⟩ | ⟨-, -, h⟩ | ⟨-, -, h⟩ <;> rw [h] <;> rfl
@[simp] theorem writeByte_ps_i (a : Word) (v : Byte) (s : State) : (writeByte a v s).ps.i = s.ps.i := by
  rcases writeByte_cases a v s with ⟨-, h⟩ | ⟨-, -, h⟩ | ⟨-, -, h⟩ <;> rw [h] <;> rfl
@[simp] theorem writeByte_ps_il (a : Word) (v : Byte) (s : State) : (writeByte a v s).ps.il = s.ps.il := by
  rcases writeByte_cases a v s with ⟨-, h⟩ | ⟨-, -, h⟩ | ⟨-, -, h⟩ <;> rw [h] <;> rfl
@[simp] theorem writeByte_ps_n (a : Word) (v : Byte) (s : State) : (writeByte a v s).ps.n = s.ps.n := by
  rcases writeByte_cases a v s with ⟨-, h⟩ | ⟨-, -, h⟩ | ⟨-, -, h⟩ <;> rw [h] <;> rfl
@[simp] theorem writeByte_ps_z (a : Word) (v : Byte) (s : State) : (writeByte a v s).ps.z = s.ps.z := by
  rcases writeByte_cases a v s with ⟨-, h⟩ | ⟨-, -, h⟩ | ⟨-, -, h⟩ <;> rw [h] <;> rfl
@[simp] theorem writeByte_ps_v (a : Word) (v : Byte) (s : State) : (writeByte a v s).ps.v = s.ps.v := by
  rcases writeByte_cases a v s with ⟨-, h⟩ | ⟨-, -, h⟩ | ⟨-, -, h⟩ <;> rw [h] <;> rfl
@[simp] theorem writeByte_ps_c (a : Word) (v : Byte) (s : State) : (writeByte a v s).ps.c = s.ps.c := by
  rcases writeByte_cases a v s with ⟨-, h⟩ | ⟨-, -, h⟩ | ⟨-, -, h⟩ <;> rw [h] <;> rfl
@[simp] theorem writeByte_ps_low (a : Word) (v : Byte) (s : State) : (writeByte a v s).ps.low = s.ps.low := by
  rcases writeByte_cases a v s with ⟨-, h⟩ | ⟨-, -, h⟩ | ⟨-, -, h⟩ <;> rw [h] <;> rfl

theorem writeByte_ps (a : Word) (v : Byte) (s : State) :
    (writeByte a v s).ps = if a = mirrorAddr then s.ps.withHigh v else s.ps := by
  rcases writeByte_cases a v s with ⟨ha, h⟩ | ⟨ha, -, h⟩ | ⟨ha, -, h⟩
  · rw [h, if_pos ha]; rfl
  · rw [h, if_neg ha]; rfl
  · rw [h, if_neg ha]; rfl

theorem writeByte_mem (a : Word) (v : Byte) (s : State) :
    (writeByte a v s).mem = if a ≠ mirrorAddr ∧ s.kindAt a = .ram then s.mem.write a.toNat v else s.mem := by
  rcases writeByte_cases a v s with ⟨ha, h⟩ | ⟨ha, hk, h⟩ | ⟨ha, hk, h⟩
  · rw [h]; simp [ha]
  · rw [h]; simp [ha, hk]
  · rw [h]; simp [hk]

theorem writeByte_bus (a : Word) (v : Byte) (s : State) :
    (writeByte a v s).bus = if s.storesInside a then s.bus else .write a v :: s.bus := by
  rcases writeByte_cases a v s with ⟨ha, h⟩ | ⟨ha, hk, h⟩ | ⟨ha, hk, h⟩
  · subst ha; rw [h]; simp [State.storesInside]
  · simp [h, hk, State.storesInside]
  · simp [h, ha, hk, State.storesInside]

/-! ## The invariant under one write -/

/-- The invariant depends on memory and the product alone. -/
theorem inv_congr {s t : State} (hm : t.mem = s.mem) (hp : t.product = s.product) : t.inv = s.inv := by
  simp only [State.inv, State.backed, State.kindAt, hm, hp]

theorem backed_iff (s : State) :
    s.backed = true ↔
      ∀ cell ∈ s.mem,
        s.kindAt (BitVec.ofNat 16 cell.1) = .ram ∨ s.kindAt (BitVec.ofNat 16 cell.1) = .rom := by
  simp [State.backed]

/-- A byte write keeps the invariant. -/
theorem inv_writeByte (a : Word) (v : Byte) {s : State} (h : s.inv = true) : (writeByte a v s).inv = true := by
  rcases writeByte_cases a v s with ⟨-, e⟩ | ⟨ha, hk, e⟩ | ⟨-, -, e⟩ <;> rw [e]
  · exact (inv_congr rfl rfl).trans h
  · simp only [State.inv, Bool.and_eq_true] at h ⊢
    refine ⟨Memory.wf_write v h.1 a.isLt fun hh => ha (BitVec.eq_of_toNat_eq hh), ?_⟩
    rw [backed_iff] at h ⊢
    intro cell hc
    rcases Memory.mem_write hc with rfl | hc
    · left; simpa using hk
    · exact h.2 cell hc
  · exact (inv_congr rfl rfl).trans h

@[simp] theorem State.withPc_inv (x : Word) (s : State) : (s.withPc x).inv = s.inv := inv_congr rfl rfl
@[simp] theorem State.withA_inv (x : Word) (s : State) : (s.withA x).inv = s.inv := inv_congr rfl rfl
@[simp] theorem State.withT_inv (x : Word) (s : State) : (s.withT x).inv = s.inv := inv_congr rfl rfl
@[simp] theorem State.withIx_inv (x : Word) (s : State) : (s.withIx x).inv = s.inv := inv_congr rfl rfl
@[simp] theorem State.withEp_inv (x : Word) (s : State) : (s.withEp x).inv = s.inv := inv_congr rfl rfl
@[simp] theorem State.withSp_inv (x : Word) (s : State) : (s.withSp x).inv = s.inv := inv_congr rfl rfl
@[simp] theorem State.withPs_inv (x : Status) (s : State) : (s.withPs x).inv = s.inv := inv_congr rfl rfl
@[simp] theorem State.withInputs_inv (x : List Boundary) (s : State) : (s.withInputs x).inv = s.inv := inv_congr rfl rfl
@[simp] theorem State.withBus_inv (x : List BusEvent) (s : State) : (s.withBus x).inv = s.inv := inv_congr rfl rfl
@[simp] theorem State.withFree_inv (x : Nat) (s : State) : (s.withFree x).inv = s.inv := inv_congr rfl rfl
@[simp] theorem State.withAl_inv (x : Byte) (s : State) : (s.withAl x).inv = s.inv := inv_congr rfl rfl
@[simp] theorem State.withTl_inv (x : Byte) (s : State) : (s.withTl x).inv = s.inv := inv_congr rfl rfl
@[simp] theorem State.advance_inv (n : Nat) (s : State) : (s.advance n).inv = s.inv := inv_congr rfl rfl
@[simp] theorem readByte_inv (rmw : Bool) (a : Word) (s : State) : (readByte rmw a s).2.inv = s.inv :=
  inv_congr (readByte_mem ..) (readByte_product ..)

/-! ## Which addresses the machine answers itself -/

/-- The addresses the machine answers itself depend on the product alone. -/
theorem readsInside_congr {s t : State} (h : t.product = s.product) (a : Word) : t.readsInside a = s.readsInside a := by
  simp only [State.readsInside, State.kindAt, h]

theorem storesInside_congr {s t : State} (h : t.product = s.product) (a : Word) :
    t.storesInside a = s.storesInside a := by
  simp only [State.storesInside, State.kindAt, h]

@[simp] theorem readByte_readsInside (rmw : Bool) (a : Word) (s : State) (b : Word) :
    (readByte rmw a s).2.readsInside b = s.readsInside b :=
  readsInside_congr (readByte_product ..) b
@[simp] theorem readByte_storesInside (rmw : Bool) (a : Word) (s : State) (b : Word) :
    (readByte rmw a s).2.storesInside b = s.storesInside b :=
  storesInside_congr (readByte_product ..) b
@[simp] theorem writeByte_readsInside (a : Word) (v : Byte) (s : State) (b : Word) :
    (writeByte a v s).readsInside b = s.readsInside b :=
  readsInside_congr (writeByte_product ..) b
@[simp] theorem writeByte_storesInside (a : Word) (v : Byte) (s : State) (b : Word) :
    (writeByte a v s).storesInside b = s.storesInside b :=
  storesInside_congr (writeByte_product ..) b

@[simp] theorem State.withPc_readsInside (x : Word) (s : State) (b : Word) :
    (s.withPc x).readsInside b = s.readsInside b := rfl
@[simp] theorem State.withPc_storesInside (x : Word) (s : State) (b : Word) :
    (s.withPc x).storesInside b = s.storesInside b := rfl
@[simp] theorem State.withA_readsInside (x : Word) (s : State) (b : Word) :
    (s.withA x).readsInside b = s.readsInside b := rfl
@[simp] theorem State.withA_storesInside (x : Word) (s : State) (b : Word) :
    (s.withA x).storesInside b = s.storesInside b := rfl
@[simp] theorem State.withT_readsInside (x : Word) (s : State) (b : Word) :
    (s.withT x).readsInside b = s.readsInside b := rfl
@[simp] theorem State.withT_storesInside (x : Word) (s : State) (b : Word) :
    (s.withT x).storesInside b = s.storesInside b := rfl
@[simp] theorem State.withIx_readsInside (x : Word) (s : State) (b : Word) :
    (s.withIx x).readsInside b = s.readsInside b := rfl
@[simp] theorem State.withIx_storesInside (x : Word) (s : State) (b : Word) :
    (s.withIx x).storesInside b = s.storesInside b := rfl
@[simp] theorem State.withEp_readsInside (x : Word) (s : State) (b : Word) :
    (s.withEp x).readsInside b = s.readsInside b := rfl
@[simp] theorem State.withEp_storesInside (x : Word) (s : State) (b : Word) :
    (s.withEp x).storesInside b = s.storesInside b := rfl
@[simp] theorem State.withSp_readsInside (x : Word) (s : State) (b : Word) :
    (s.withSp x).readsInside b = s.readsInside b := rfl
@[simp] theorem State.withSp_storesInside (x : Word) (s : State) (b : Word) :
    (s.withSp x).storesInside b = s.storesInside b := rfl
@[simp] theorem State.withPs_readsInside (x : Status) (s : State) (b : Word) :
    (s.withPs x).readsInside b = s.readsInside b := rfl
@[simp] theorem State.withPs_storesInside (x : Status) (s : State) (b : Word) :
    (s.withPs x).storesInside b = s.storesInside b := rfl
@[simp] theorem State.withMem_readsInside (x : Memory) (s : State) (b : Word) :
    (s.withMem x).readsInside b = s.readsInside b := rfl
@[simp] theorem State.withMem_storesInside (x : Memory) (s : State) (b : Word) :
    (s.withMem x).storesInside b = s.storesInside b := rfl
@[simp] theorem State.withInputs_readsInside (x : List Boundary) (s : State) (b : Word) :
    (s.withInputs x).readsInside b = s.readsInside b := rfl
@[simp] theorem State.withInputs_storesInside (x : List Boundary) (s : State) (b : Word) :
    (s.withInputs x).storesInside b = s.storesInside b := rfl
@[simp] theorem State.withBus_readsInside (x : List BusEvent) (s : State) (b : Word) :
    (s.withBus x).readsInside b = s.readsInside b := rfl
@[simp] theorem State.withBus_storesInside (x : List BusEvent) (s : State) (b : Word) :
    (s.withBus x).storesInside b = s.storesInside b := rfl
@[simp] theorem State.withFree_readsInside (x : Nat) (s : State) (b : Word) :
    (s.withFree x).readsInside b = s.readsInside b := rfl
@[simp] theorem State.withFree_storesInside (x : Nat) (s : State) (b : Word) :
    (s.withFree x).storesInside b = s.storesInside b := rfl
@[simp] theorem State.withAl_readsInside (x : Byte) (s : State) (b : Word) :
    (s.withAl x).readsInside b = s.readsInside b := rfl
@[simp] theorem State.withAl_storesInside (x : Byte) (s : State) (b : Word) :
    (s.withAl x).storesInside b = s.storesInside b := rfl
@[simp] theorem State.withTl_readsInside (x : Byte) (s : State) (b : Word) :
    (s.withTl x).readsInside b = s.readsInside b := rfl
@[simp] theorem State.withTl_storesInside (x : Byte) (s : State) (b : Word) :
    (s.withTl x).storesInside b = s.storesInside b := rfl
@[simp] theorem State.advance_readsInside (n : Nat) (s : State) (b : Word) :
    (s.advance n).readsInside b = s.readsInside b := rfl
@[simp] theorem State.advance_storesInside (n : Nat) (s : State) (b : Word) :
    (s.advance n).storesInside b = s.storesInside b := rfl

/-! ## The byte at an address after an update that does not touch it -/

@[simp] theorem State.withPc_byteAt (x : Word) (s : State) (b : Word) : (s.withPc x).byteAt b = s.byteAt b :=
  byteAt_congr (s := s) (t := s.withPc x) rfl rfl rfl rfl b
@[simp] theorem State.withA_byteAt (x : Word) (s : State) (b : Word) : (s.withA x).byteAt b = s.byteAt b :=
  byteAt_congr (s := s) (t := s.withA x) rfl rfl rfl rfl b
@[simp] theorem State.withT_byteAt (x : Word) (s : State) (b : Word) : (s.withT x).byteAt b = s.byteAt b :=
  byteAt_congr (s := s) (t := s.withT x) rfl rfl rfl rfl b
@[simp] theorem State.withIx_byteAt (x : Word) (s : State) (b : Word) : (s.withIx x).byteAt b = s.byteAt b :=
  byteAt_congr (s := s) (t := s.withIx x) rfl rfl rfl rfl b
@[simp] theorem State.withEp_byteAt (x : Word) (s : State) (b : Word) : (s.withEp x).byteAt b = s.byteAt b :=
  byteAt_congr (s := s) (t := s.withEp x) rfl rfl rfl rfl b
@[simp] theorem State.withSp_byteAt (x : Word) (s : State) (b : Word) : (s.withSp x).byteAt b = s.byteAt b :=
  byteAt_congr (s := s) (t := s.withSp x) rfl rfl rfl rfl b
@[simp] theorem State.withInputs_byteAt (x : List Boundary) (s : State) (b : Word) : (s.withInputs x).byteAt b = s.byteAt b :=
  byteAt_congr (s := s) (t := s.withInputs x) rfl rfl rfl rfl b
@[simp] theorem State.withFree_byteAt (x : Nat) (s : State) (b : Word) : (s.withFree x).byteAt b = s.byteAt b :=
  byteAt_congr (s := s) (t := s.withFree x) rfl rfl rfl rfl b
@[simp] theorem State.withAl_byteAt (x : Byte) (s : State) (b : Word) : (s.withAl x).byteAt b = s.byteAt b :=
  byteAt_congr (s := s) (t := s.withAl x) rfl rfl rfl rfl b
@[simp] theorem State.withTl_byteAt (x : Byte) (s : State) (b : Word) : (s.withTl x).byteAt b = s.byteAt b :=
  byteAt_congr (s := s) (t := s.withTl x) rfl rfl rfl rfl b
@[simp] theorem State.advance_byteAt (n : Nat) (s : State) (b : Word) : (s.advance n).byteAt b = s.byteAt b :=
  byteAt_congr (s := s) (t := s.advance n) rfl rfl rfl rfl b

/-! ## Words -/

/-- A word read is two byte reads, the upper byte first. -/
theorem readWord_eq (a : Word) (s : State) :
    readWord a s =
      (join (s.byteAt a) ((readByte false a s).2.byteAt (a + 1)),
        (readByte false (a + 1) (readByte false a s).2).2) := rfl

/-- A word read that the machine answers itself. -/
theorem readWord_inside {a : Word} {s : State} (h : s.readsInside a = true) (h1 : s.readsInside (a + 1) = true) :
    readWord a s = (join (s.byteAt a) (s.byteAt (a + 1)), s) := by
  simp only [readWord, readByte_inside false h, readByte_inside false h1]

/-- Two steps that each change at most `bus` change at most `bus` together. -/
theorem State.withBus_trans {s t u : State} (h : t = s.withBus t.bus) (h' : u = t.withBus u.bus) :
    u = s.withBus u.bus :=
  h'.trans (congrArg (·.withBus u.bus) h)

/-- A word read changes at most the record of what the environment has seen. -/
theorem readWord_state (a : Word) (s : State) : (readWord a s).2 = s.withBus (readWord a s).2.bus :=
  State.withBus_trans (readByte_state false a s) (readByte_state false (a + 1) _)

@[simp] theorem readWord_pc (a : Word) (s : State) : (readWord a s).2.pc = s.pc := by
  rw [readWord_state]; rfl
@[simp] theorem readWord_a (a : Word) (s : State) : (readWord a s).2.a = s.a := by
  rw [readWord_state]; rfl
@[simp] theorem readWord_t (a : Word) (s : State) : (readWord a s).2.t = s.t := by
  rw [readWord_state]; rfl
@[simp] theorem readWord_ix (a : Word) (s : State) : (readWord a s).2.ix = s.ix := by
  rw [readWord_state]; rfl
@[simp] theorem readWord_ep (a : Word) (s : State) : (readWord a s).2.ep = s.ep := by
  rw [readWord_state]; rfl
@[simp] theorem readWord_sp (a : Word) (s : State) : (readWord a s).2.sp = s.sp := by
  rw [readWord_state]; rfl
@[simp] theorem readWord_product (a : Word) (s : State) : (readWord a s).2.product = s.product := by
  rw [readWord_state]; rfl
@[simp] theorem readWord_inputs (a : Word) (s : State) : (readWord a s).2.inputs = s.inputs := by
  rw [readWord_state]; rfl
@[simp] theorem readWord_free (a : Word) (s : State) : (readWord a s).2.free = s.free := by
  rw [readWord_state]; rfl
@[simp] theorem readWord_ps (a : Word) (s : State) : (readWord a s).2.ps = s.ps := by
  rw [readWord_state]; rfl
@[simp] theorem readWord_mem (a : Word) (s : State) : (readWord a s).2.mem = s.mem := by
  rw [readWord_state]; rfl
@[simp] theorem readWord_ah (a : Word) (s : State) : (readWord a s).2.ah = s.ah := by
  rw [readWord_state]; rfl
@[simp] theorem readWord_al (a : Word) (s : State) : (readWord a s).2.al = s.al := by
  rw [readWord_state]; rfl
@[simp] theorem readWord_th (a : Word) (s : State) : (readWord a s).2.th = s.th := by
  rw [readWord_state]; rfl
@[simp] theorem readWord_tl (a : Word) (s : State) : (readWord a s).2.tl = s.tl := by
  rw [readWord_state]; rfl
@[simp] theorem readWord_boundary (a : Word) (s : State) : (readWord a s).2.boundary = s.boundary := by
  rw [readWord_state]; rfl
@[simp] theorem readWord_kindAt (a : Word) (s : State) (b : Word) : (readWord a s).2.kindAt b = s.kindAt b := by
  rw [readWord_state]; rfl
@[simp] theorem readWord_nextPC (a : Word) (s : State) (n : Nat) : (readWord a s).2.nextPC n = s.nextPC n := by
  rw [readWord_state]; rfl

/-- A word write is two byte writes, the upper byte first and at the lower address. -/
theorem writeWord_eq (a w : Word) (s : State) :
    writeWord a w s = writeByte (a + 1) (lo w) (writeByte a (hi w) s) := rfl

@[simp] theorem writeWord_pc (a w : Word) (s : State) : (writeWord a w s).pc = s.pc := by
  simp [writeWord]
@[simp] theorem writeWord_a (a w : Word) (s : State) : (writeWord a w s).a = s.a := by
  simp [writeWord]
@[simp] theorem writeWord_t (a w : Word) (s : State) : (writeWord a w s).t = s.t := by
  simp [writeWord]
@[simp] theorem writeWord_ix (a w : Word) (s : State) : (writeWord a w s).ix = s.ix := by
  simp [writeWord]
@[simp] theorem writeWord_ep (a w : Word) (s : State) : (writeWord a w s).ep = s.ep := by
  simp [writeWord]
@[simp] theorem writeWord_sp (a w : Word) (s : State) : (writeWord a w s).sp = s.sp := by
  simp [writeWord]
@[simp] theorem writeWord_product (a w : Word) (s : State) : (writeWord a w s).product = s.product := by
  simp [writeWord]
@[simp] theorem writeWord_inputs (a w : Word) (s : State) : (writeWord a w s).inputs = s.inputs := by
  simp [writeWord]
@[simp] theorem writeWord_free (a w : Word) (s : State) : (writeWord a w s).free = s.free := by
  simp [writeWord]
@[simp] theorem writeWord_ah (a w : Word) (s : State) : (writeWord a w s).ah = s.ah := by
  simp [writeWord]
@[simp] theorem writeWord_al (a w : Word) (s : State) : (writeWord a w s).al = s.al := by
  simp [writeWord]
@[simp] theorem writeWord_th (a w : Word) (s : State) : (writeWord a w s).th = s.th := by
  simp [writeWord]
@[simp] theorem writeWord_tl (a w : Word) (s : State) : (writeWord a w s).tl = s.tl := by
  simp [writeWord]
@[simp] theorem writeWord_boundary (a w : Word) (s : State) : (writeWord a w s).boundary = s.boundary := by
  simp [writeWord]
@[simp] theorem writeWord_kindAt (a w : Word) (s : State) (b : Word) : (writeWord a w s).kindAt b = s.kindAt b := by
  simp [writeWord]
@[simp] theorem writeWord_nextPC (a w : Word) (s : State) (n : Nat) : (writeWord a w s).nextPC n = s.nextPC n := by
  simp [writeWord]
@[simp] theorem writeWord_ps_low (a w : Word) (s : State) : (writeWord a w s).ps.low = s.ps.low := by
  simp [writeWord]

@[simp] theorem readWord_readsInside (a : Word) (s : State) (b : Word) :
    (readWord a s).2.readsInside b = s.readsInside b :=
  readsInside_congr (readWord_product ..) b
@[simp] theorem readWord_storesInside (a : Word) (s : State) (b : Word) :
    (readWord a s).2.storesInside b = s.storesInside b :=
  storesInside_congr (readWord_product ..) b
@[simp] theorem writeWord_readsInside (a w : Word) (s : State) (b : Word) :
    (writeWord a w s).readsInside b = s.readsInside b :=
  readsInside_congr (writeWord_product ..) b
@[simp] theorem writeWord_storesInside (a w : Word) (s : State) (b : Word) :
    (writeWord a w s).storesInside b = s.storesInside b :=
  storesInside_congr (writeWord_product ..) b

@[simp] theorem readWord_inv (a : Word) (s : State) : (readWord a s).2.inv = s.inv :=
  inv_congr (readWord_mem ..) (readWord_product ..)

theorem withByte_eq (a : Word) (k : Byte → State → State) (s : State) :
    withByte a k s = k (s.byteAt a) (readByte false a s).2 := rfl

theorem withWord_eq (a : Word) (k : Word → State → State) (s : State) :
    withWord a k s = k (s.wordAt a) (readWord a s).2 := rfl

theorem modifyByte_eq (a : Word) (f : Byte → Byte) (s : State) :
    modifyByte a f s = writeByte a (f (readByte true a s).1) (readByte true a s).2 := rfl

/-! ## The stack -/

/-- A push is two byte writes, the lower byte first, and SP less 2. -/
theorem push16_eq (w : Word) (s : State) :
    push16 w s = (writeByte (s.sp - 2) (hi w) (writeByte (s.sp - 1) (lo w) s)).withSp (s.sp - 2) := rfl

/-- A pop is a word read at SP, and SP plus 2. -/
theorem pop16_eq (s : State) : pop16 s = (s.wordAt s.sp, ((readWord s.sp s).2).withSp (s.sp + 2)) := rfl

@[simp] theorem push16_pc (w : Word) (s : State) : (push16 w s).pc = s.pc := by
  simp [push16]
@[simp] theorem push16_a (w : Word) (s : State) : (push16 w s).a = s.a := by
  simp [push16]
@[simp] theorem push16_t (w : Word) (s : State) : (push16 w s).t = s.t := by
  simp [push16]
@[simp] theorem push16_ix (w : Word) (s : State) : (push16 w s).ix = s.ix := by
  simp [push16]
@[simp] theorem push16_ep (w : Word) (s : State) : (push16 w s).ep = s.ep := by
  simp [push16]
@[simp] theorem push16_product (w : Word) (s : State) : (push16 w s).product = s.product := by
  simp [push16]
@[simp] theorem push16_inputs (w : Word) (s : State) : (push16 w s).inputs = s.inputs := by
  simp [push16]
@[simp] theorem push16_free (w : Word) (s : State) : (push16 w s).free = s.free := by
  simp [push16]
@[simp] theorem push16_ah (w : Word) (s : State) : (push16 w s).ah = s.ah := by
  simp [push16]
@[simp] theorem push16_al (w : Word) (s : State) : (push16 w s).al = s.al := by
  simp [push16]
@[simp] theorem push16_th (w : Word) (s : State) : (push16 w s).th = s.th := by
  simp [push16]
@[simp] theorem push16_tl (w : Word) (s : State) : (push16 w s).tl = s.tl := by
  simp [push16]
@[simp] theorem push16_boundary (w : Word) (s : State) : (push16 w s).boundary = s.boundary := by
  simp [push16]
@[simp] theorem push16_sp (w : Word) (s : State) : (push16 w s).sp = s.sp - 2 := rfl
@[simp] theorem pop16_pc (s : State) : (pop16 s).2.pc = s.pc := by
  simp [pop16]
@[simp] theorem pop16_a (s : State) : (pop16 s).2.a = s.a := by
  simp [pop16]
@[simp] theorem pop16_t (s : State) : (pop16 s).2.t = s.t := by
  simp [pop16]
@[simp] theorem pop16_ix (s : State) : (pop16 s).2.ix = s.ix := by
  simp [pop16]
@[simp] theorem pop16_ep (s : State) : (pop16 s).2.ep = s.ep := by
  simp [pop16]
@[simp] theorem pop16_product (s : State) : (pop16 s).2.product = s.product := by
  simp [pop16]
@[simp] theorem pop16_inputs (s : State) : (pop16 s).2.inputs = s.inputs := by
  simp [pop16]
@[simp] theorem pop16_free (s : State) : (pop16 s).2.free = s.free := by
  simp [pop16]
@[simp] theorem pop16_ps (s : State) : (pop16 s).2.ps = s.ps := by
  simp [pop16]
@[simp] theorem pop16_mem (s : State) : (pop16 s).2.mem = s.mem := by
  simp [pop16]
@[simp] theorem pop16_ah (s : State) : (pop16 s).2.ah = s.ah := by
  simp [pop16]
@[simp] theorem pop16_al (s : State) : (pop16 s).2.al = s.al := by
  simp [pop16]
@[simp] theorem pop16_th (s : State) : (pop16 s).2.th = s.th := by
  simp [pop16]
@[simp] theorem pop16_tl (s : State) : (pop16 s).2.tl = s.tl := by
  simp [pop16]
@[simp] theorem pop16_boundary (s : State) : (pop16 s).2.boundary = s.boundary := by
  simp [pop16]
@[simp] theorem pop16_sp (s : State) : (pop16 s).2.sp = s.sp + 2 := rfl
@[simp] theorem push16_nextPC (w : Word) (s : State) (n : Nat) : (push16 w s).nextPC n = s.nextPC n := by
  simp [push16]
@[simp] theorem push16_kindAt (w : Word) (s : State) (b : Word) : (push16 w s).kindAt b = s.kindAt b := by
  simp [push16]
@[simp] theorem push16_ps_low (w : Word) (s : State) : (push16 w s).ps.low = s.ps.low := by
  simp [push16]
@[simp] theorem pop16_nextPC (s : State) (n : Nat) : (pop16 s).2.nextPC n = s.nextPC n := by
  simp [pop16]
@[simp] theorem pop16_kindAt (s : State) (b : Word) : (pop16 s).2.kindAt b = s.kindAt b := by
  simp [pop16]

/-! ## Free values -/

theorem drawBit_eq (s : State) : drawBit s = (Config.freeBit s.free, s.withFree (s.free + 1)) := rfl
theorem drawByte_eq (s : State) : drawByte s = (Config.freeByte s.free, s.withFree (s.free + 1)) := rfl
theorem drawWord_eq (s : State) : drawWord s = (Config.freeWord s.free, s.withFree (s.free + 1)) := rfl

theorem withBit_eq (k : Bool → State → State) (s : State) :
    withBit k s = k (Config.freeBit s.free) (s.withFree (s.free + 1)) := rfl

/-! ## Interrupts and reset -/

/-- A request is accepted at a boundary when it is presented there without reset and meets the condition. -/
theorem accepted_eq_some_iff (s : State) (r : Request) :
    s.accepted = some r ↔ s.boundary.reset = false ∧ s.boundary.irq = some r ∧ s.accepts r = true := by
  unfold State.accepted
  rcases s.boundary.reset with _ | _ <;> simp [Option.filter_eq_some_iff]

/-- Everything the sampling at a boundary can do. -/
theorem sampleInterrupt_cases (s : State) :
    (sampleInterrupt s = s ∧
      (s.boundary.reset = true ∨ s.boundary.irq = none ∨ ∃ r, s.boundary.irq = some r ∧ s.accepts r = false)) ∨
    (∃ r, s.boundary.reset = false ∧ s.boundary.irq = some r ∧ s.accepts r = true ∧
      sampleInterrupt s = enterInterrupt r s) := by
  unfold sampleInterrupt State.accepted
  rcases hr : s.boundary.reset with _ | _
  · rcases hi : s.boundary.irq with _ | r
    · simp
    · rcases ha : s.accepts r with _ | _ <;> simp [Option.filter, ha]
  · simp

/-- A request is accepted when its number exists, I is 1 and its level is below IL. -/
theorem accepts_iff (s : State) (r : Request) :
    s.accepts r = true ↔ r.number < s.product.nIrq.val ∧ s.ps.i = true ∧ r.level.toNat < s.ps.il.toNat := by
  simp [State.accepts, State.numberExists, BitVec.lt_def, and_assoc]

/-- The handler entered at a boundary starts inside its own stack frame exactly where one is entered and its vector
points there. -/
theorem entersOwnFrame_iff (s : State) :
    entersOwnFrame s = true ↔
      ∃ r, s.accepted = some r ∧ (readWord (irqVector r.number) s).1 ∈ entryFrame s := by
  unfold entersOwnFrame
  rcases s.accepted with _ | r <;> simp [enterInterrupt]

/-- Interrupt entry leaves the registers it does not name. -/
theorem enterInterrupt_regs (r : Request) (s : State) :
    (enterInterrupt r s).a = s.a ∧ (enterInterrupt r s).t = s.t ∧ (enterInterrupt r s).ix = s.ix ∧
      (enterInterrupt r s).ep = s.ep ∧ (enterInterrupt r s).product = s.product ∧
      (enterInterrupt r s).inputs = s.inputs ∧ (enterInterrupt r s).free = s.free := by
  simp [enterInterrupt]

/-- The registers after the reset sequence, but for PC. -/
theorem resetSequence_regs (s : State) :
    (resetSequence s).a = 0 ∧ (resetSequence s).t = 0 ∧ (resetSequence s).ix = 0 ∧ (resetSequence s).ep = 0 ∧
      (resetSequence s).sp = 0 ∧ (resetSequence s).ps = Status.reset ∧ (resetSequence s).mem = s.mem ∧
      (resetSequence s).product = s.product ∧ (resetSequence s).inputs = s.inputs ∧
      (resetSequence s).free = s.free := by
  simp [resetSequence]

/-- The return from an interrupt reads four bytes and changes no memory. -/
theorem returnFromInterrupt_regs (s : State) :
    (returnFromInterrupt s).a = s.a ∧ (returnFromInterrupt s).t = s.t ∧ (returnFromInterrupt s).ix = s.ix ∧
      (returnFromInterrupt s).ep = s.ep ∧ (returnFromInterrupt s).mem = s.mem ∧
      (returnFromInterrupt s).product = s.product ∧ (returnFromInterrupt s).inputs = s.inputs ∧
      (returnFromInterrupt s).free = s.free ∧ (returnFromInterrupt s).sp = s.sp + 4 := by
  simp [returnFromInterrupt]

/-! ## Fetch -/

/-- Reading bytes changes at most the record of what the environment has seen. -/
theorem fetchBytes_state (n : Nat) (a : Word) (s : State) :
    (fetchBytes n a s).2 = s.withBus (fetchBytes n a s).2.bus := by
  induction n generalizing a s with
  | zero => rfl
  | succ n ih => exact State.withBus_trans (readByte_state false a s) (ih (a + 1) _)

@[simp] theorem fetchBytes_length (n : Nat) (a : Word) (s : State) : (fetchBytes n a s).1.length = n := by
  induction n generalizing a s with
  | zero => rfl
  | succ n ih => simp [fetchBytes, ih]

/-- A fetch changes at most the record of what the environment has seen. -/
theorem fetch_state (s : State) : (fetch s).2 = s.withBus (fetch s).2.bus :=
  State.withBus_trans (readByte_state false s.pc s) (fetchBytes_state _ _ _)

/-- The first byte fetched is the byte at PC. -/
theorem fetch_head (s : State) : (fetch s).1.head? = some (s.byteAt s.pc) := rfl

theorem fetch_length (s : State) : (fetch s).1.length = opcodeLength (s.byteAt s.pc) - 1 + 1 := by
  simp [fetch, State.byteAt]

end Sys2Proof.Machine
end

