-- ==== Sys2Proof/Laws/Arithmetic.lean ====
section
/-! SUPPORT. The meanings of Machine/Arithmetic.lean that branch on data, once: everything each of them can do. -/

namespace Sys2Proof.Machine

/-- DIVU A by a divisor that is not zero. -/
theorem divideT_nonzero {s : State} (h : s.a ≠ 0#16) :
    divideT s = ((s.withA (s.t / s.a)).withT (s.t % s.a)).withPs { s.ps with z := false } := by
  simp only [divideT, if_neg h]

/-- DIVU A by zero: A and T are free, Z is 1. -/
theorem divideT_zero {s : State} (h : s.a = 0#16) :
    divideT s =
      (((s.withFree (s.free + 2)).withA (Config.freeWord s.free)).withT (Config.freeWord (s.free + 1))).withPs
        { s.ps with z := true } := by
  simp only [divideT, if_pos h]
  rfl

/-- DIVU A changes A, T, Z and the counter of free values, and nothing else. -/
theorem divideT_eq (s : State) :
    divideT s =
      (((s.withFree (divideT s).free).withA (divideT s).a).withT (divideT s).t).withPs
        { s.ps with z := decide (s.a = 0#16) } := by
  by_cases h : s.a = 0#16
  · rw [divideT_zero h]; simp [h]
  · rw [divideT_nonzero h]; simp [h]; rfl

/-- DAA on a row of Table 6.26-1. -/
theorem decimalAfterAdd_table {s : State} {k : Byte} {c : Bool}
    (h : daaCorrection s.ps.c s.ps.h s.al = some (k, c)) :
    decimalAfterAdd s = (s.withAl (s.al + k)).withPs (s.ps.adjustAdd s.al k c) := by
  simp only [decimalAfterAdd, h]

/-- DAA outside Table 6.26-1: five free values. -/
theorem decimalAfterAdd_free {s : State} (h : daaCorrection s.ps.c s.ps.h s.al = none) :
    decimalAfterAdd s =
      ((s.withFree (s.free + 5)).withAl (Config.freeByte s.free)).withPs
        { s.ps with
          n := Config.freeBit (s.free + 1)
          z := Config.freeBit (s.free + 2)
          v := Config.freeBit (s.free + 3)
          c := Config.freeBit (s.free + 4) } := by
  simp only [decimalAfterAdd, h]
  rfl

/-- DAA changes AL, N, Z, V, C and the counter of free values, and nothing else. -/
theorem decimalAfterAdd_eq (s : State) :
    decimalAfterAdd s =
      ((s.withFree (decimalAfterAdd s).free).withAl (decimalAfterAdd s).al).withPs
        { s.ps with
          n := (decimalAfterAdd s).ps.n
          z := (decimalAfterAdd s).ps.z
          v := (decimalAfterAdd s).ps.v
          c := (decimalAfterAdd s).ps.c } := by
  cases h : daaCorrection s.ps.c s.ps.h s.al with
  | none => rw [decimalAfterAdd_free h]; simp
  | some r => obtain ⟨k, c⟩ := r; rw [decimalAfterAdd_table h]; simp; rfl

end Sys2Proof.Machine
end

