-- ==== Sys2Proof/Laws/PerInstr.lean ====
section
/-! SUPPORT. One statement about every instruction as syntax, proved for each constructor. -/

namespace Sys2Proof.Laws.EncodedLength

/-- A well-formed instruction's encoding begins with an opcode byte and has as many bytes as the length table gives for
that byte (30_encoding R116). -/
def Statement (i : Instr) : Prop :=
  i.wellFormed = true → ∃ op rest, encode i = op :: rest ∧ rest.length + 1 = opcodeLength op

/-- The length table is constant on the 8 first bytes of a block. -/
theorem block_length {op : Byte} {k : Nat} (h : ∀ j : Fin 8, k = opcodeLength (withField op j)) {i : Nat}
    (hi : decide (i < 8) = true) : k = opcodeLength (withField op i) :=
  h ⟨i, of_decide_eq_true hi⟩

theorem movAImm (d8 : Byte) : Statement (.movAImm d8) := fun _ => ⟨_, _, rfl, rfl⟩
theorem movADir (dir : Byte) : Statement (.movADir dir) := fun _ => ⟨_, _, rfl, rfl⟩
theorem movAAtIx (off : Byte) : Statement (.movAAtIx off) := fun _ => ⟨_, _, rfl, rfl⟩
theorem movAAtEp : Statement .movAAtEp := fun _ => ⟨_, _, rfl, rfl⟩
theorem movAReg (i : Nat) : Statement (.movAReg i) := fun h => ⟨_, _, rfl, block_length (k := 1) (by decide) h⟩
theorem swap : Statement .swap := fun _ => ⟨_, _, rfl, rfl⟩
theorem xchAT : Statement .xchAT := fun _ => ⟨_, _, rfl, rfl⟩
theorem xchwAT : Statement .xchwAT := fun _ => ⟨_, _, rfl, rfl⟩
theorem movDirA (dir : Byte) : Statement (.movDirA dir) := fun _ => ⟨_, _, rfl, rfl⟩
theorem movAtIxA (off : Byte) : Statement (.movAtIxA off) := fun _ => ⟨_, _, rfl, rfl⟩
theorem movAtEpA : Statement .movAtEpA := fun _ => ⟨_, _, rfl, rfl⟩
theorem movRegA (i : Nat) : Statement (.movRegA i) := fun h => ⟨_, _, rfl, block_length (k := 1) (by decide) h⟩
theorem movAExt (ext : Word) : Statement (.movAExt ext) := fun _ => ⟨_, _, rfl, rfl⟩
theorem movExtA (ext : Word) : Statement (.movExtA ext) := fun _ => ⟨_, _, rfl, rfl⟩
theorem movwAPs : Statement .movwAPs := fun _ => ⟨_, _, rfl, rfl⟩
theorem movwPsA : Statement .movwPsA := fun _ => ⟨_, _, rfl, rfl⟩
theorem movAtAT : Statement .movAtAT := fun _ => ⟨_, _, rfl, rfl⟩
theorem movwAtAT : Statement .movwAtAT := fun _ => ⟨_, _, rfl, rfl⟩
theorem movDirImm (dir : Byte) (d8 : Byte) : Statement (.movDirImm dir d8) := fun _ => ⟨_, _, rfl, rfl⟩
theorem movAtIxImm (off : Byte) (d8 : Byte) : Statement (.movAtIxImm off d8) := fun _ => ⟨_, _, rfl, rfl⟩
theorem movAtEpImm (d8 : Byte) : Statement (.movAtEpImm d8) := fun _ => ⟨_, _, rfl, rfl⟩
theorem movRegImm (i : Nat) (d8 : Byte) : Statement (.movRegImm i d8) := fun h => ⟨_, _, rfl, block_length (k := 2) (by decide) h⟩
theorem movAAtA : Statement .movAAtA := fun _ => ⟨_, _, rfl, rfl⟩
theorem movwAAtA : Statement .movwAAtA := fun _ => ⟨_, _, rfl, rfl⟩
theorem clrb (dir : Byte) (b : Nat) : Statement (.clrb dir b) := fun h => ⟨_, _, rfl, block_length (k := 2) (by decide) h⟩
theorem setb (dir : Byte) (b : Nat) : Statement (.setb dir b) := fun h => ⟨_, _, rfl, block_length (k := 2) (by decide) h⟩
theorem movwAExt (ext : Word) : Statement (.movwAExt ext) := fun _ => ⟨_, _, rfl, rfl⟩
theorem movwADir (dir : Byte) : Statement (.movwADir dir) := fun _ => ⟨_, _, rfl, rfl⟩
theorem movwAAtIx (off : Byte) : Statement (.movwAAtIx off) := fun _ => ⟨_, _, rfl, rfl⟩
theorem movwAAtEp : Statement .movwAAtEp := fun _ => ⟨_, _, rfl, rfl⟩
theorem movwExtA (ext : Word) : Statement (.movwExtA ext) := fun _ => ⟨_, _, rfl, rfl⟩
theorem movwDirA (dir : Byte) : Statement (.movwDirA dir) := fun _ => ⟨_, _, rfl, rfl⟩
theorem movwAtIxA (off : Byte) : Statement (.movwAtIxA off) := fun _ => ⟨_, _, rfl, rfl⟩
theorem movwAtEpA : Statement .movwAtEpA := fun _ => ⟨_, _, rfl, rfl⟩
theorem movwSpA : Statement .movwSpA := fun _ => ⟨_, _, rfl, rfl⟩
theorem movwIxA : Statement .movwIxA := fun _ => ⟨_, _, rfl, rfl⟩
theorem movwEpA : Statement .movwEpA := fun _ => ⟨_, _, rfl, rfl⟩
theorem movwAImm (d16 : Word) : Statement (.movwAImm d16) := fun _ => ⟨_, _, rfl, rfl⟩
theorem movwSpImm (d16 : Word) : Statement (.movwSpImm d16) := fun _ => ⟨_, _, rfl, rfl⟩
theorem movwIxImm (d16 : Word) : Statement (.movwIxImm d16) := fun _ => ⟨_, _, rfl, rfl⟩
theorem movwEpImm (d16 : Word) : Statement (.movwEpImm d16) := fun _ => ⟨_, _, rfl, rfl⟩
theorem movwAPc : Statement .movwAPc := fun _ => ⟨_, _, rfl, rfl⟩
theorem movwASp : Statement .movwASp := fun _ => ⟨_, _, rfl, rfl⟩
theorem movwAIx : Statement .movwAIx := fun _ => ⟨_, _, rfl, rfl⟩
theorem movwAEp : Statement .movwAEp := fun _ => ⟨_, _, rfl, rfl⟩
theorem xchwASp : Statement .xchwASp := fun _ => ⟨_, _, rfl, rfl⟩
theorem xchwAIx : Statement .xchwAIx := fun _ => ⟨_, _, rfl, rfl⟩
theorem xchwAEp : Statement .xchwAEp := fun _ => ⟨_, _, rfl, rfl⟩
theorem muluA : Statement .muluA := fun _ => ⟨_, _, rfl, rfl⟩
theorem rolcA : Statement .rolcA := fun _ => ⟨_, _, rfl, rfl⟩
theorem rorcA : Statement .rorcA := fun _ => ⟨_, _, rfl, rfl⟩
theorem divuA : Statement .divuA := fun _ => ⟨_, _, rfl, rfl⟩
theorem cmpA : Statement .cmpA := fun _ => ⟨_, _, rfl, rfl⟩
theorem cmpwA : Statement .cmpwA := fun _ => ⟨_, _, rfl, rfl⟩
theorem cmpAImm (d8 : Byte) : Statement (.cmpAImm d8) := fun _ => ⟨_, _, rfl, rfl⟩
theorem cmpADir (dir : Byte) : Statement (.cmpADir dir) := fun _ => ⟨_, _, rfl, rfl⟩
theorem cmpAAtIx (off : Byte) : Statement (.cmpAAtIx off) := fun _ => ⟨_, _, rfl, rfl⟩
theorem cmpAAtEp : Statement .cmpAAtEp := fun _ => ⟨_, _, rfl, rfl⟩
theorem cmpAReg (i : Nat) : Statement (.cmpAReg i) := fun h => ⟨_, _, rfl, block_length (k := 1) (by decide) h⟩
theorem addcA : Statement .addcA := fun _ => ⟨_, _, rfl, rfl⟩
theorem addcwA : Statement .addcwA := fun _ => ⟨_, _, rfl, rfl⟩
theorem addcAImm (d8 : Byte) : Statement (.addcAImm d8) := fun _ => ⟨_, _, rfl, rfl⟩
theorem addcADir (dir : Byte) : Statement (.addcADir dir) := fun _ => ⟨_, _, rfl, rfl⟩
theorem addcAAtIx (off : Byte) : Statement (.addcAAtIx off) := fun _ => ⟨_, _, rfl, rfl⟩
theorem addcAAtEp : Statement .addcAAtEp := fun _ => ⟨_, _, rfl, rfl⟩
theorem addcAReg (i : Nat) : Statement (.addcAReg i) := fun h => ⟨_, _, rfl, block_length (k := 1) (by decide) h⟩
theorem subcA : Statement .subcA := fun _ => ⟨_, _, rfl, rfl⟩
theorem subcwA : Statement .subcwA := fun _ => ⟨_, _, rfl, rfl⟩
theorem subcAImm (d8 : Byte) : Statement (.subcAImm d8) := fun _ => ⟨_, _, rfl, rfl⟩
theorem subcADir (dir : Byte) : Statement (.subcADir dir) := fun _ => ⟨_, _, rfl, rfl⟩
theorem subcAAtIx (off : Byte) : Statement (.subcAAtIx off) := fun _ => ⟨_, _, rfl, rfl⟩
theorem subcAAtEp : Statement .subcAAtEp := fun _ => ⟨_, _, rfl, rfl⟩
theorem subcAReg (i : Nat) : Statement (.subcAReg i) := fun h => ⟨_, _, rfl, block_length (k := 1) (by decide) h⟩
theorem xorA : Statement .xorA := fun _ => ⟨_, _, rfl, rfl⟩
theorem xorwA : Statement .xorwA := fun _ => ⟨_, _, rfl, rfl⟩
theorem xorAImm (d8 : Byte) : Statement (.xorAImm d8) := fun _ => ⟨_, _, rfl, rfl⟩
theorem xorADir (dir : Byte) : Statement (.xorADir dir) := fun _ => ⟨_, _, rfl, rfl⟩
theorem xorAAtIx (off : Byte) : Statement (.xorAAtIx off) := fun _ => ⟨_, _, rfl, rfl⟩
theorem xorAAtEp : Statement .xorAAtEp := fun _ => ⟨_, _, rfl, rfl⟩
theorem xorAReg (i : Nat) : Statement (.xorAReg i) := fun h => ⟨_, _, rfl, block_length (k := 1) (by decide) h⟩
theorem andA : Statement .andA := fun _ => ⟨_, _, rfl, rfl⟩
theorem andwA : Statement .andwA := fun _ => ⟨_, _, rfl, rfl⟩
theorem andAImm (d8 : Byte) : Statement (.andAImm d8) := fun _ => ⟨_, _, rfl, rfl⟩
theorem andADir (dir : Byte) : Statement (.andADir dir) := fun _ => ⟨_, _, rfl, rfl⟩
theorem andAAtIx (off : Byte) : Statement (.andAAtIx off) := fun _ => ⟨_, _, rfl, rfl⟩
theorem andAAtEp : Statement .andAAtEp := fun _ => ⟨_, _, rfl, rfl⟩
theorem andAReg (i : Nat) : Statement (.andAReg i) := fun h => ⟨_, _, rfl, block_length (k := 1) (by decide) h⟩
theorem orA : Statement .orA := fun _ => ⟨_, _, rfl, rfl⟩
theorem orwA : Statement .orwA := fun _ => ⟨_, _, rfl, rfl⟩
theorem orAImm (d8 : Byte) : Statement (.orAImm d8) := fun _ => ⟨_, _, rfl, rfl⟩
theorem orADir (dir : Byte) : Statement (.orADir dir) := fun _ => ⟨_, _, rfl, rfl⟩
theorem orAAtIx (off : Byte) : Statement (.orAAtIx off) := fun _ => ⟨_, _, rfl, rfl⟩
theorem orAAtEp : Statement .orAAtEp := fun _ => ⟨_, _, rfl, rfl⟩
theorem orAReg (i : Nat) : Statement (.orAReg i) := fun h => ⟨_, _, rfl, block_length (k := 1) (by decide) h⟩
theorem daa : Statement .daa := fun _ => ⟨_, _, rfl, rfl⟩
theorem das : Statement .das := fun _ => ⟨_, _, rfl, rfl⟩
theorem cmpDirImm (dir : Byte) (d8 : Byte) : Statement (.cmpDirImm dir d8) := fun _ => ⟨_, _, rfl, rfl⟩
theorem cmpAtIxImm (off : Byte) (d8 : Byte) : Statement (.cmpAtIxImm off d8) := fun _ => ⟨_, _, rfl, rfl⟩
theorem cmpAtEpImm (d8 : Byte) : Statement (.cmpAtEpImm d8) := fun _ => ⟨_, _, rfl, rfl⟩
theorem cmpRegImm (i : Nat) (d8 : Byte) : Statement (.cmpRegImm i d8) := fun h => ⟨_, _, rfl, block_length (k := 2) (by decide) h⟩
theorem incwA : Statement .incwA := fun _ => ⟨_, _, rfl, rfl⟩
theorem incwSp : Statement .incwSp := fun _ => ⟨_, _, rfl, rfl⟩
theorem incwIx : Statement .incwIx := fun _ => ⟨_, _, rfl, rfl⟩
theorem incwEp : Statement .incwEp := fun _ => ⟨_, _, rfl, rfl⟩
theorem incReg (i : Nat) : Statement (.incReg i) := fun h => ⟨_, _, rfl, block_length (k := 1) (by decide) h⟩
theorem decwA : Statement .decwA := fun _ => ⟨_, _, rfl, rfl⟩
theorem decwSp : Statement .decwSp := fun _ => ⟨_, _, rfl, rfl⟩
theorem decwIx : Statement .decwIx := fun _ => ⟨_, _, rfl, rfl⟩
theorem decwEp : Statement .decwEp := fun _ => ⟨_, _, rfl, rfl⟩
theorem decReg (i : Nat) : Statement (.decReg i) := fun h => ⟨_, _, rfl, block_length (k := 1) (by decide) h⟩
theorem ret : Statement .ret := fun _ => ⟨_, _, rfl, rfl⟩
theorem jmpExt (ext : Word) : Statement (.jmpExt ext) := fun _ => ⟨_, _, rfl, rfl⟩
theorem reti : Statement .reti := fun _ => ⟨_, _, rfl, rfl⟩
theorem callExt (ext : Word) : Statement (.callExt ext) := fun _ => ⟨_, _, rfl, rfl⟩
theorem bbc (dir : Byte) (b : Nat) (rel : Byte) : Statement (.bbc dir b rel) := fun h => ⟨_, _, rfl, block_length (k := 3) (by decide) h⟩
theorem bbs (dir : Byte) (b : Nat) (rel : Byte) : Statement (.bbs dir b rel) := fun h => ⟨_, _, rfl, block_length (k := 3) (by decide) h⟩
theorem jmpAtA : Statement .jmpAtA := fun _ => ⟨_, _, rfl, rfl⟩
theorem callv (vct : Nat) : Statement (.callv vct) := fun h => ⟨_, _, rfl, block_length (k := 1) (by decide) h⟩
theorem xchwAPc : Statement .xchwAPc := fun _ => ⟨_, _, rfl, rfl⟩
theorem bnc (rel : Byte) : Statement (.bnc rel) := fun _ => ⟨_, _, rfl, rfl⟩
theorem bc (rel : Byte) : Statement (.bc rel) := fun _ => ⟨_, _, rfl, rfl⟩
theorem bp (rel : Byte) : Statement (.bp rel) := fun _ => ⟨_, _, rfl, rfl⟩
theorem bn (rel : Byte) : Statement (.bn rel) := fun _ => ⟨_, _, rfl, rfl⟩
theorem bnz (rel : Byte) : Statement (.bnz rel) := fun _ => ⟨_, _, rfl, rfl⟩
theorem bz (rel : Byte) : Statement (.bz rel) := fun _ => ⟨_, _, rfl, rfl⟩
theorem bge (rel : Byte) : Statement (.bge rel) := fun _ => ⟨_, _, rfl, rfl⟩
theorem blt (rel : Byte) : Statement (.blt rel) := fun _ => ⟨_, _, rfl, rfl⟩
theorem nop : Statement .nop := fun _ => ⟨_, _, rfl, rfl⟩
theorem pushwA : Statement .pushwA := fun _ => ⟨_, _, rfl, rfl⟩
theorem pushwIx : Statement .pushwIx := fun _ => ⟨_, _, rfl, rfl⟩
theorem popwA : Statement .popwA := fun _ => ⟨_, _, rfl, rfl⟩
theorem popwIx : Statement .popwIx := fun _ => ⟨_, _, rfl, rfl⟩
theorem clri : Statement .clri := fun _ => ⟨_, _, rfl, rfl⟩
theorem clrc : Statement .clrc := fun _ => ⟨_, _, rfl, rfl⟩
theorem seti : Statement .seti := fun _ => ⟨_, _, rfl, rfl⟩
theorem setc : Statement .setc := fun _ => ⟨_, _, rfl, rfl⟩

end Sys2Proof.Laws.EncodedLength
end

