-- ==== Sys2Proof/Tests/Slice0.lean ====
section
/-! SUPPORT. Tests: ill-formed instructions are refused by WellFormed; every constructor's word, written out from the
Encoding entry of its rule, decodes to it and is its encoding; single steps on the worked examples that the spec
transcribes from the source; and for each statement of Certificates/Slice0/Obligations.lean that has hypotheses, a
concrete state and operands that meet them. -/

namespace Sys2Proof.Tests

open Sys2Proof.Machine Sys2Proof.Claims

/-! ## WellFormed refuses ill-formed terms -/

theorem test_wellFormed_registerNumber : (Instr.movAReg 8).wellFormed = false := by decide

theorem test_wellFormed_bitNumber : (Instr.setb 0x32#8 8).wellFormed = false := by decide

theorem test_wellFormed_vectorNumber : (Instr.callv 8).wellFormed = false := by decide

/-! ## Decoding

Sample operands: i = 2, b = 5, vct = 3, dir = 84H, off = FEH, rel = FBH, d8 = 12H, ext = 5678H, d16 = 9ABCH. -/

/-- Each word decodes to its instruction with nothing left over, and is that instruction's encoding. -/
def decodesAll (l : List (List Byte × Instr)) : Bool :=
  l.all fun p =>
    decide (encode p.2 = p.1) &&
      match decode p.1 with
      | .ok (i, []) => decide (i = p.2)
      | _ => false

theorem test_decode_transfer_1 :
    decodesAll
      [ ([0x04#8, 0x12#8], .movAImm 0x12#8),
        ([0x05#8, 0x84#8], .movADir 0x84#8),
        ([0x06#8, 0xFE#8], .movAAtIx 0xFE#8),
        ([0x07#8], .movAAtEp),
        ([0x0A#8], .movAReg 2),
        ([0x10#8], .swap),
        ([0x42#8], .xchAT),
        ([0x43#8], .xchwAT),
        ([0x45#8, 0x84#8], .movDirA 0x84#8),
        ([0x46#8, 0xFE#8], .movAtIxA 0xFE#8),
        ([0x47#8], .movAtEpA),
        ([0x4A#8], .movRegA 2),
        ([0x60#8, 0x56#8, 0x78#8], .movAExt 0x5678#16),
        ([0x61#8, 0x56#8, 0x78#8], .movExtA 0x5678#16),
        ([0x70#8], .movwAPs),
        ([0x71#8], .movwPsA) ] = true := by
  decide

theorem test_decode_transfer_2 :
    decodesAll
      [ ([0x82#8], .movAtAT),
        ([0x83#8], .movwAtAT),
        ([0x85#8, 0x84#8, 0x12#8], .movDirImm 0x84#8 0x12#8),
        ([0x86#8, 0xFE#8, 0x12#8], .movAtIxImm 0xFE#8 0x12#8),
        ([0x87#8, 0x12#8], .movAtEpImm 0x12#8),
        ([0x8A#8, 0x12#8], .movRegImm 2 0x12#8),
        ([0x92#8], .movAAtA),
        ([0x93#8], .movwAAtA),
        ([0xA5#8, 0x84#8], .clrb 0x84#8 5),
        ([0xAD#8, 0x84#8], .setb 0x84#8 5),
        ([0xC4#8, 0x56#8, 0x78#8], .movwAExt 0x5678#16),
        ([0xC5#8, 0x84#8], .movwADir 0x84#8),
        ([0xC6#8, 0xFE#8], .movwAAtIx 0xFE#8),
        ([0xC7#8], .movwAAtEp),
        ([0xD4#8, 0x56#8, 0x78#8], .movwExtA 0x5678#16),
        ([0xD5#8, 0x84#8], .movwDirA 0x84#8) ] = true := by
  decide

theorem test_decode_transfer_3 :
    decodesAll
      [ ([0xD6#8, 0xFE#8], .movwAtIxA 0xFE#8),
        ([0xD7#8], .movwAtEpA),
        ([0xE1#8], .movwSpA),
        ([0xE2#8], .movwIxA),
        ([0xE3#8], .movwEpA),
        ([0xE4#8, 0x9A#8, 0xBC#8], .movwAImm 0x9ABC#16),
        ([0xE5#8, 0x9A#8, 0xBC#8], .movwSpImm 0x9ABC#16),
        ([0xE6#8, 0x9A#8, 0xBC#8], .movwIxImm 0x9ABC#16),
        ([0xE7#8, 0x9A#8, 0xBC#8], .movwEpImm 0x9ABC#16),
        ([0xF0#8], .movwAPc),
        ([0xF1#8], .movwASp),
        ([0xF2#8], .movwAIx),
        ([0xF3#8], .movwAEp),
        ([0xF5#8], .xchwASp),
        ([0xF6#8], .xchwAIx),
        ([0xF7#8], .xchwAEp) ] = true := by
  decide

theorem test_decode_arithmetic_1 :
    decodesAll
      [ ([0x01#8], .muluA),
        ([0x02#8], .rolcA),
        ([0x03#8], .rorcA),
        ([0x11#8], .divuA),
        ([0x12#8], .cmpA),
        ([0x13#8], .cmpwA),
        ([0x14#8, 0x12#8], .cmpAImm 0x12#8),
        ([0x15#8, 0x84#8], .cmpADir 0x84#8),
        ([0x16#8, 0xFE#8], .cmpAAtIx 0xFE#8),
        ([0x17#8], .cmpAAtEp),
        ([0x1A#8], .cmpAReg 2),
        ([0x22#8], .addcA),
        ([0x23#8], .addcwA),
        ([0x24#8, 0x12#8], .addcAImm 0x12#8),
        ([0x25#8, 0x84#8], .addcADir 0x84#8),
        ([0x26#8, 0xFE#8], .addcAAtIx 0xFE#8) ] = true := by
  decide

theorem test_decode_arithmetic_2 :
    decodesAll
      [ ([0x27#8], .addcAAtEp),
        ([0x2A#8], .addcAReg 2),
        ([0x32#8], .subcA),
        ([0x33#8], .subcwA),
        ([0x34#8, 0x12#8], .subcAImm 0x12#8),
        ([0x35#8, 0x84#8], .subcADir 0x84#8),
        ([0x36#8, 0xFE#8], .subcAAtIx 0xFE#8),
        ([0x37#8], .subcAAtEp),
        ([0x3A#8], .subcAReg 2),
        ([0x52#8], .xorA),
        ([0x53#8], .xorwA),
        ([0x54#8, 0x12#8], .xorAImm 0x12#8),
        ([0x55#8, 0x84#8], .xorADir 0x84#8),
        ([0x56#8, 0xFE#8], .xorAAtIx 0xFE#8),
        ([0x57#8], .xorAAtEp),
        ([0x5A#8], .xorAReg 2) ] = true := by
  decide

theorem test_decode_arithmetic_3 :
    decodesAll
      [ ([0x62#8], .andA),
        ([0x63#8], .andwA),
        ([0x64#8, 0x12#8], .andAImm 0x12#8),
        ([0x65#8, 0x84#8], .andADir 0x84#8),
        ([0x66#8, 0xFE#8], .andAAtIx 0xFE#8),
        ([0x67#8], .andAAtEp),
        ([0x6A#8], .andAReg 2),
        ([0x72#8], .orA),
        ([0x73#8], .orwA),
        ([0x74#8, 0x12#8], .orAImm 0x12#8),
        ([0x75#8, 0x84#8], .orADir 0x84#8),
        ([0x76#8, 0xFE#8], .orAAtIx 0xFE#8),
        ([0x77#8], .orAAtEp),
        ([0x7A#8], .orAReg 2),
        ([0x84#8], .daa),
        ([0x94#8], .das) ] = true := by
  decide

theorem test_decode_arithmetic_4 :
    decodesAll
      [ ([0x95#8, 0x84#8, 0x12#8], .cmpDirImm 0x84#8 0x12#8),
        ([0x96#8, 0xFE#8, 0x12#8], .cmpAtIxImm 0xFE#8 0x12#8),
        ([0x97#8, 0x12#8], .cmpAtEpImm 0x12#8),
        ([0x9A#8, 0x12#8], .cmpRegImm 2 0x12#8),
        ([0xC0#8], .incwA),
        ([0xC1#8], .incwSp),
        ([0xC2#8], .incwIx),
        ([0xC3#8], .incwEp),
        ([0xCA#8], .incReg 2),
        ([0xD0#8], .decwA),
        ([0xD1#8], .decwSp),
        ([0xD2#8], .decwIx),
        ([0xD3#8], .decwEp),
        ([0xDA#8], .decReg 2) ] = true := by
  decide

theorem test_decode_branch_1 :
    decodesAll
      [ ([0x20#8], .ret),
        ([0x21#8, 0x56#8, 0x78#8], .jmpExt 0x5678#16),
        ([0x30#8], .reti),
        ([0x31#8, 0x56#8, 0x78#8], .callExt 0x5678#16),
        ([0xB5#8, 0x84#8, 0xFB#8], .bbc 0x84#8 5 0xFB#8),
        ([0xBD#8, 0x84#8, 0xFB#8], .bbs 0x84#8 5 0xFB#8),
        ([0xE0#8], .jmpAtA),
        ([0xEB#8], .callv 3),
        ([0xF4#8], .xchwAPc),
        ([0xF8#8, 0xFB#8], .bnc 0xFB#8),
        ([0xF9#8, 0xFB#8], .bc 0xFB#8),
        ([0xFA#8, 0xFB#8], .bp 0xFB#8),
        ([0xFB#8, 0xFB#8], .bn 0xFB#8),
        ([0xFC#8, 0xFB#8], .bnz 0xFB#8),
        ([0xFD#8, 0xFB#8], .bz 0xFB#8),
        ([0xFE#8, 0xFB#8], .bge 0xFB#8) ] = true := by
  decide

theorem test_decode_branch_2 :
    decodesAll
      [ ([0xFF#8, 0xFB#8], .blt 0xFB#8) ] = true := by
  decide

theorem test_decode_other_1 :
    decodesAll
      [ ([0x00#8], .nop),
        ([0x40#8], .pushwA),
        ([0x41#8], .pushwIx),
        ([0x50#8], .popwA),
        ([0x51#8], .popwIx),
        ([0x80#8], .clri),
        ([0x81#8], .clrc),
        ([0x90#8], .seti),
        ([0x91#8], .setc) ] = true := by
  decide

theorem test_decode_44_refused : decode [0x44#8, 0x00#8, 0x00#8] = .error (.undefinedOpcode 0x44#8) := by rfl

theorem test_decode_truncated : decode [0x60#8, 0x12#8] = .error .truncated := by rfl

/-! ## Single steps on the source's examples -/

/-- The state after one step, with these bytes at PC. -/
def ran (bytes : List Byte) (s : State) : Option State :=
  match step (placeBytes bytes s.pc s) with
  | .next t => some t
  | .fault _ => none
  | .refused _ => none

/-- A state with values in A and T and flags in the low byte of PS. -/
def regs (a t : Word) (psl : Byte) : State :=
  { State.reset with pc := 0xE000#16, a := a, t := t, ps := Status.ofBytes 0x00#8 psl }

/-- 40_transfer R148: MOV A,#12H with A = 5678H. -/
theorem test_mov_a_imm :
    (ran [0x04#8, 0x12#8] (regs 0x5678#16 0#16 0#8)).map (fun t => (t.a, t.t)) = some (0x5612#16, 0x0078#16) := by
  decide

/-- 30_encoding R104: MOV 92H,A with DP = 001B and A = 45H writes 0112H. -/
theorem test_mov_dir_a :
    (ran [0x45#8, 0x92#8] { regs 0x0045#16 0#16 0#8 with ps := Status.ofBytes 0x01#8 0#8 }).map
      (fun t => t.byteAt 0x0112#16) = some 0x45#8 := by
  decide

/-- 40_transfer R155: MOV 78H,#0AH sets RP = 00001B and DP = 010B. -/
theorem test_mov_mirror :
    (ran [0x85#8, 0x78#8, 0x0A#8] (regs 0#16 0#16 0x30#8)).map (fun t => t.ps.toWord) = some 0x0A30#16 := by
  decide

/-- 20_memory R64: MOVW ABCDH,A with A = 1234H. -/
theorem test_movw_ext_a :
    (ran [0xD4#8, 0xAB#8, 0xCD#8] (regs 0x1234#16 0#16 0#8)).map
      (fun t => (t.byteAt 0xABCD#16, t.byteAt 0xABCE#16)) = some (0x12#8, 0x34#8) := by
  decide

/-- 40_transfer R166: MOVW A,@IX+01H with A = 0102H, IX = 0150H and EFH, 23H at 0151H. -/
theorem test_movw_a_ix :
    (ran [0xC6#8, 0x01#8] { regs 0x0102#16 0#16 0#8 with ix := 0x0150#16, mem := [(0x0151, 0xEF#8), (0x0152, 0x23#8)] }).map
      (fun t => (t.a, t.t, t.ps.n, t.ps.z)) = some (0xEF23#16, 0x0102#16, true, false) := by
  decide

/-- 40_transfer R179, R180: MOVW A,PS with PS = 7818H, and MOVW PS,A with A = 0830H. -/
theorem test_movw_ps :
    (ran [0x70#8] { regs 0#16 0#16 0#8 with ps := Status.ofWord 0x7818#16 }).map (·.a) = some 0x7818#16 ∧
    (ran [0x71#8] (regs 0x0830#16 0#16 0#8)).map (fun t => (t.ps.rp, t.ps.dp, t.ps.il)) = some (1#5, 0#3, 3#2) := by
  decide

/-- 40_transfer R182, R185: SWAP with A = 32AAH, and XCH A,T with T = 5579H. -/
theorem test_swap_xch :
    (ran [0x10#8] (regs 0x32AA#16 0#16 0#8)).map (·.a) = some 0xAA32#16 ∧
    (ran [0x42#8] (regs 0x32AA#16 0x5579#16 0#8)).map (fun t => (t.a, t.t)) = some (0x3279#16, 0x55AA#16) := by
  decide

/-- 40_transfer R183: SETB 32H:5 with DP = 101B touches 0032H. -/
theorem test_setb :
    (ran [0xAD#8, 0x32#8] { regs 0#16 0#16 0#8 with ps := Status.ofBytes 0x05#8 0#8, mem := [(0x0032, 0x01#8)] }).map
      (fun t => t.byteAt 0x0032#16) = some 0x21#8 := by
  decide

/-- 41_arithmetic R213: ADDC A with A = 1234H, T = 5678H, C = 0: N = 1, Z = 0, V = 1, C = 0. -/
theorem test_addc_a :
    (ran [0x22#8] (regs 0x1234#16 0x5678#16 0#8)).map (fun t => (t.a, t.ps.low)) = some (0x12AC#16, 0x0A#8) := by
  decide

/-- 41_arithmetic R213: ADDC A with A = AB56H, T = CDEFH, C = 1: C = 1 and H = 1. -/
theorem test_addc_a_carry :
    (ran [0x22#8] (regs 0xAB56#16 0xCDEF#16 0x01#8)).map (fun t => (t.a, t.ps.low)) = some (0xAB46#16, 0x81#8) := by
  decide

/-- 41_arithmetic R212, R219: ADDCW A and SUBCW A. -/
theorem test_addcw_subcw :
    (ran [0x23#8] (regs 0x1234#16 0x5678#16 0x01#8)).map (fun t => (t.a, t.ps.n, t.ps.c)) =
      some (0x68AD#16, false, false) ∧
    (ran [0x33#8] (regs 0x2420#16 0x5634#16 0#8)).map (fun t => (t.a, t.t, t.ps.c)) =
      some (0x3214#16, 0x5634#16, false) := by
  decide

/-- 41_arithmetic R214, R220: SUBC A with A = 1211H, T = 7634H; SUBC A,R2 with 80H - 01H: V = 1 and H = 1. -/
theorem test_subc :
    (ran [0x32#8] (regs 0x1211#16 0x7634#16 0#8)).map (fun t => (t.a, t.ps.c)) = some (0x1223#16, false) ∧
    (ran [0x3A#8] { regs 0x0080#16 0#16 0#8 with ps := Status.ofBytes 0x08#8 0#8, mem := [(0x010A, 0x01#8)] }).map
      (fun t => (t.al, t.ps.low)) = some (0x7F#8, 0x82#8) := by
  decide

/-- 41_arithmetic R221, R222: CMP A with AL = 75H, TL = 48H, and CMPW A with A = 8675H, T = 2448H. -/
theorem test_cmp :
    (ran [0x12#8] (regs 0x0075#16 0x0048#16 0#8)).map (fun t => (t.ps.n, t.ps.z, t.ps.v, t.ps.c)) =
      some (true, false, false, true) ∧
    (ran [0x13#8] (regs 0x8675#16 0x2448#16 0#8)).map (fun t => (t.ps.n, t.ps.z, t.ps.v, t.ps.c)) =
      some (true, false, true, true) := by
  decide

/-- 41_arithmetic R261, R262: MULU A with A = 5678H, T = 1234H, DIVU A with A = 1234H, T = 5678H, and a division by
zero. -/
theorem test_mulu_divu :
    (ran [0x01#8] (regs 0x5678#16 0x1234#16 0#8)).map (fun t => (t.a, t.t)) = some (0x1860#16, 0x1234#16) ∧
    (ran [0x11#8] (regs 0x1234#16 0x5678#16 0#8)).map (fun t => (t.a, t.t, t.ps.z)) =
      some (0x0004#16, 0x0DA8#16, false) ∧
    (ran [0x11#8] (regs 0x0000#16 0x5678#16 0#8)).map (fun t => (t.pc, t.ps.low)) = some (0xE001#16, 0x04#8) := by
  decide

/-- 41_arithmetic R265, R266: ROLC A and RORC A with AL = 55H, C = 1. -/
theorem test_rotates :
    (ran [0x02#8] (regs 0x0055#16 0#16 0x01#8)).map (fun t => (t.al, t.ps.low)) = some (0xAB#8, 0x08#8) ∧
    (ran [0x03#8] (regs 0x0055#16 0#16 0x01#8)).map (fun t => (t.al, t.ps.low)) = some (0xAA#8, 0x09#8) := by
  decide

/-- 41_arithmetic R267, R270: DAA with AL = 4AH and DAS with AL = 2FH, H = 1. -/
theorem test_daa_das :
    (ran [0x84#8] (regs 0x004A#16 0#16 0x30#8)).map (fun t => (t.al, t.ps.low)) = some (0x50#8, 0x30#8) ∧
    (ran [0x94#8] (regs 0x002F#16 0#16 0xB0#8)).map (fun t => (t.al, t.ps.low)) = some (0x29#8, 0xB0#8) := by
  decide

/-- 41_arithmetic R263, R264: INC R1 with RP = 1 and DEC R2 with RP = 2. -/
theorem test_inc_dec :
    (ran [0xC9#8] { regs 0#16 0#16 0#8 with ps := Status.ofBytes 0x08#8 0#8, mem := [(0x0109, 0x56#8)] }).map
      (fun t => (t.byteAt 0x0109#16, t.ps.n)) = some (0x57#8, false) ∧
    (ran [0xDA#8] { regs 0#16 0#16 0#8 with ps := Status.ofBytes 0x10#8 0#8, mem := [(0x0112, 0xFE#8)] }).map
      (fun t => (t.byteAt 0x0112#16, t.ps.n)) = some (0xFD#8, true) := by
  decide

/-- 42_branch R283, R288, R290: BZ taken backwards, BP and BGE not taken. -/
theorem test_branches :
    (ran [0xFD#8, 0xFA#8] { regs 0#16 0#16 0x04#8 with pc := 0xFE1E#16 }).map (·.pc) = some 0xFE1A#16 ∧
    (ran [0xFA#8, 0x04#8] { regs 0#16 0#16 0x0B#8 with pc := 0xFC5F#16 }).map (·.pc) = some 0xFC61#16 ∧
    (ran [0xFE#8, 0x02#8] { regs 0#16 0#16 0x07#8 with pc := 0xF456#16 }).map (·.pc) = some 0xF458#16 := by
  decide

/-- 42_branch R292, R293: BBC and BBS 84H:0,0FBH at E800H, each taken. -/
theorem test_bit_branches :
    (ran [0xB0#8, 0x84#8, 0xFB#8] { regs 0#16 0#16 0#8 with pc := 0xE800#16 }).map (fun t => (t.pc, t.ps.z)) =
      some (0xE7FE#16, true) ∧
    (ran [0xB8#8, 0x84#8, 0xFB#8] { regs 0#16 0#16 0x04#8 with pc := 0xE800#16, mem := [(0x0084, 0x01#8)] }).map
      (fun t => (t.pc, t.ps.z)) = some (0xE7FE#16, false) := by
  decide

/-- 42_branch R298: XCHW A,PC with A = F0C7H at F179H. -/
theorem test_xchw_a_pc :
    (ran [0xF4#8] { regs 0xF0C7#16 0#16 0#8 with pc := 0xF179#16 }).map (fun t => (t.a, t.pc)) =
      some (0xF17A#16, 0xF0C7#16) := by
  decide

/-- 42_branch R296: CALL 0FC00H at F623H with SP = 020AH. -/
theorem test_call :
    (ran [0x31#8, 0xFC#8, 0x00#8] { regs 0#16 0#16 0#8 with pc := 0xF623#16, sp := 0x020A#16 }).map
      (fun t => (t.pc, t.sp, t.byteAt 0x0208#16, t.byteAt 0x0209#16)) =
      some (0xFC00#16, 0x0208#16, 0xF6#8, 0x26#8) := by
  decide

/-- 42_branch R297: CALLV #2 at E800H with SP = 0208H and ECH, 00H at FFC4H. -/
theorem test_callv :
    (ran [0xEA#8] { regs 0#16 0#16 0#8 with pc := 0xE800#16, sp := 0x0208#16, mem := [(0xFFC4, 0xEC#8)] }).map
      (fun t => (t.pc, t.byteAt 0x0206#16, t.byteAt 0x0207#16)) = some (0xEC00#16, 0xE8#8, 0x01#8) := by
  decide

/-- 42_branch R300: RETI with 08H, 84H, FCH, 10H at 0206H. -/
theorem test_reti :
    (ran [0x30#8] { regs 0#16 0#16 0x0B#8 with
      sp := 0x0206#16, mem := [(0x0206, 0x08#8), (0x0207, 0x84#8), (0x0208, 0xFC#8), (0x0209, 0x10#8)] }).map
      (fun t => (t.ps.toWord, t.pc, t.sp)) = some (0x0884#16, 0xFC10#16, 0x020A#16) := by
  decide

/-- 20_memory R70: PUSHW A with A = ABCDH, SP = 1235H, and POPW IX with FEH, DCH at 5678H. -/
theorem test_pushw_popw :
    (ran [0x40#8] { regs 0xABCD#16 0#16 0#8 with sp := 0x1235#16 }).map
      (fun t => (t.sp, t.byteAt 0x1233#16, t.byteAt 0x1234#16)) = some (0x1233#16, 0xAB#8, 0xCD#8) ∧
    (ran [0x51#8] { regs 0#16 0#16 0#8 with sp := 0x5678#16, mem := [(0x5678, 0xFE#8), (0x5679, 0xDC#8)] }).map
      (fun t => (t.ix, t.sp)) = some (0xFEDC#16, 0x567A#16) := by
  decide

/-- 43_other R329: CLRI with CCR = 01110001B. -/
theorem test_clri : (ran [0x80#8] (regs 0#16 0#16 0x71#8)).map (fun t => t.ps.low) = some 0x31#8 := by decide

/-- 60_exceptions R347, R350: SETI with a request of level 2 pending and IL = 3 is entered at the boundary that ends it;
with level 3 it is not. -/
theorem test_interrupt :
    (ran [0x90#8] { regs 0#16 0#16 0x30#8 with
      sp := 0x0300#16, mem := [(0xFFF6, 0x12#8), (0xFFF7, 0x34#8)]
      inputs := [⟨false, none⟩, ⟨false, some ⟨2, 2#2⟩⟩] }).map
      (fun t => (t.pc, t.sp, t.ps.low, t.wordAt 0x02FC#16, t.wordAt 0x02FE#16)) =
      some (0x1234#16, 0x02FC#16, 0x60#8, 0x0070#16, 0xE001#16) ∧
    (ran [0x90#8] { regs 0#16 0#16 0x30#8 with
      sp := 0x0300#16, inputs := [⟨false, none⟩, ⟨false, some ⟨2, 3#2⟩⟩] }).map
      (fun t => (t.pc, t.sp)) = some (0xE001#16, 0x0300#16) := by
  decide

/-- 70_reset R381: reset asserted at the boundary, with FC10H at the reset vector. -/
theorem test_reset :
    (ran [] { regs 0x1234#16 0x5678#16 0xFF#8 with
      mem := [(0x0200, 0x11#8), (0xFFFE, 0xFC#8), (0xFFFF, 0x10#8)], inputs := [⟨true, some ⟨0, 0#2⟩⟩] }).map
      (fun t => (t.pc, t.a, t.ps.toWord, t.byteAt 0x0200#16)) = some (0xFC10#16, 0#16, 0x0030#16, 0x11#8) := by
  decide

/-- A NOP at E000H with request 23 accepted after it, the vector FFCCH holding `handler`, and SP = 0300H. -/
def handlerAt (handler : Word) : State :=
  { regs 0#16 0#16 0x70#8 with
    sp := 0x0300#16, pc := 0xE000#16, inputs := [⟨false, none⟩, ⟨false, some ⟨23, 1#2⟩⟩],
    mem := (Memory.write [] 0xFFCC (hi handler)).write 0xFFCD (lo handler) }

/-- 70_reset R388: outside the claims exactly where the handler starts inside its own stack frame, 02FCH to 02FFH. -/
theorem test_handler_in_its_own_frame :
    (handlerAt 0x02FB#16).safeStep = true ∧ (handlerAt 0x02FC#16).safeStep = false ∧
    (handlerAt 0x02FF#16).safeStep = false ∧ (handlerAt 0x0300#16).safeStep = true ∧
    State.safeStep { handlerAt 0x02FC#16 with inputs := [] } = true := by
  decide

/-- 20_memory R83: a store to the third byte after the instruction is outside the claims, one past it is inside. -/
theorem test_store_ahead :
    storesAhead (.movExtA 0x8005#16) { State.reset with pc := 0x8000#16 } = true ∧
    storesAhead (.movExtA 0x8006#16) { State.reset with pc := 0x8000#16 } = false := by
  decide

/-! ## The hypotheses of the statements can be met -/

theorem test_witness_DecodeInvertsEncode :
    (Instr.bbs 0xFF#8 7 0x80#8).wellFormed = true ∧ (Instr.callv 0).wellFormed = true := by
  decide

theorem test_witness_DecodedBytesAreTheEncoding :
    decode [0xBF#8, 0x84#8, 0xFB#8, 0x00#8] = .ok (.bbs 0x84#8 7 0xFB#8, [0x00#8]) := by rfl

theorem test_witness_LengthByFirstByte :
    decode [0x21#8, 0x12#8, 0x34#8, 0xFF#8] = .ok (.jmpExt 0x1234#16, [0xFF#8]) := by rfl

/-- A product with ROM from 8000H on and I/O from 0000H to 007FH. -/
def mapped : State :=
  { State.reset with
    product := { memMap := [⟨0x0000#16, 0x007F#16, .io⟩, ⟨0x8000#16, 0xFFFF#16, .rom⟩], nIrq := 24 } }

theorem test_witness_ByteWriteThenRead :
    State.reset.storesInside 0x0000#16 = true ∧ State.reset.storesInside 0xFFFF#16 = true ∧
    mapped.storesInside 0x0078#16 = true ∧ mapped.storesInside 0x0077#16 = false ∧
    mapped.readsInside 0x8000#16 = true ∧ mapped.storesInside 0x8000#16 = false := by
  decide

theorem test_witness_WordWriteThenRead :
    State.reset.storesInside 0xFFFF#16 = true ∧ State.reset.storesInside (0xFFFF#16 + 1) = true ∧
    State.reset.storesInside 0x0077#16 = true ∧ State.reset.storesInside (0x0077#16 + 1) = true := by
  decide

theorem test_witness_CanonicalMemoryIsUnique : Memory.wf [(0x0000, 0x01#8), (0xFFFF, 0x02#8)] = true := by decide

theorem test_witness_DirectAddresses :
    State.reset.readsInside (dirAddr 0x7F#8 State.reset) = true ∧
    State.reset.readsInside (dirAddr 0x7F#8 State.reset + 1) = true ∧
    State.reset.readsInside (dirAddr 0x80#8 State.reset) = true ∧
    State.reset.readsInside (dirAddr 0xFF#8 State.reset + 1) = true := by
  decide

theorem test_witness_RegisterAddresses :
    regAddr 0 State.reset = 0x0100#16 ∧ regAddr 7 { State.reset with ps := Status.ofBytes 0xF8#8 0#8 } = 0x01FF#16 := by
  decide

theorem test_witness_VectorAddresses :
    callvAddr 0 = 0xFFC0#16 ∧ callvAddr 7 = 0xFFCE#16 ∧ irqVector 0 = 0xFFFA#16 ∧ irqVector 23 = 0xFFCC#16 := by
  decide

/-- SP = 0000H, where a push wraps, and SP = 0079H, where it meets 0078H. -/
theorem test_witness_PushAndPop :
    State.reset.storesInside (State.reset.sp - 2) = true ∧ State.reset.storesInside (State.reset.sp - 1) = true ∧
    mapped.storesInside (0x007A#16 - 2) = true ∧ mapped.storesInside (0x0079#16 - 1) = true := by
  decide

theorem test_witness_EveryInstructionCompletes : isBranch .divuA = false ∧ isBranch (.setb 0x78#8 7) = false := by
  decide

theorem test_witness_UnlistedFieldsKeepTheirValue :
    (∃ t, exec .movAtEpA { State.reset with ep := 0x0200#16 } = .next t) ∧ Field.rp ∉ writtenFields .movAtEpA ∧
    mirrorAddr ∉ storeAddrs .movAtEpA { State.reset with ep := 0x0200#16 } ∧ Field.h ∉ writtenFields .daa :=
  ⟨⟨_, rfl⟩, by decide, by decide, by decide⟩

theorem test_witness_OnlyStoredBytesChange :
    (∃ t, exec (.movwExtA 0xFFFF#16) State.reset = .next t) ∧
    0x0001#16 ∉ storeAddrs (.movwExtA 0xFFFF#16) State.reset ∧ State.reset.readsInside 0x0001#16 = true ∧
    mirrorAddr ∉ storeAddrs (.movwExtA 0xFFFF#16) State.reset ∧ State.reset.readsInside mirrorAddr = true :=
  ⟨⟨_, rfl⟩, by decide, by decide, by decide, by decide⟩

theorem test_witness_EnvironmentSeesOnlyItsOwnAccesses :
    (∃ t, exec (.incReg 7) mapped = .next t) ∧ (∀ a ∈ loadAddrs (.incReg 7) mapped, mapped.readsInside a = true) ∧
    (∀ a ∈ storeAddrs (.incReg 7) mapped, mapped.storesInside a = true) :=
  ⟨⟨_, rfl⟩, List.all_eq_true.1 (by decide), List.all_eq_true.1 (by decide)⟩

/-- One access outside beside one inside: a word at 0077H, of which 0078H is kept, and CALLV #0 with the vector in ROM and
the stack in I/O; and both outside: SETB of I/O. -/
theorem test_witness_EnvironmentSeesOnlyItsOwnAccesses_mixed :
    accessesOutside (.movwDirA 0x77#8) mapped = [.write 0x0077#16] ∧
    accessesOutside (.callv 0) { mapped with sp := 0x0010#16 } = [.write 0x000F#16, .write 0x000E#16] ∧
    accessesOutside (.setb 0x10#8 0) mapped = [.read 0x0010#16, .write 0x0010#16] := by
  decide

theorem test_witness_Stores :
    mapped.storesInside (dirAddr 0x78#8 mapped) = true ∧ mapped.storesInside (dirAddr 0x80#8 mapped) = true ∧
    mapped.storesInside (ixAddr 0x80#8 { mapped with ix := 0x1000#16 }) = true ∧
    mapped.storesInside (regAddr 7 mapped) = true ∧ mapped.storesInside (0x0077#16 + 1) = true := by
  decide

theorem test_witness_MultiplicationAndDivision : (regs 0x0001#16 0xFFFF#16 0#8).a ≠ 0#16 ∧ State.reset.a = 0#16 := by
  decide

/-- Each row of Table 6.26-1 covers the corners of its ranges. -/
theorem test_witness_DecimalAdjustAfterAddition :
    ∀ r ∈ daaRows,
      r.covers (regs (BitVec.ofNat 16 (16 * r.u0 + r.l0)) 0#16 (BitVec.ofNat 8 (128 * r.h.toNat + r.c.toNat))) ∧
      r.covers (regs (BitVec.ofNat 16 (16 * r.u1 + r.l1)) 0#16 (BitVec.ofNat 8 (128 * r.h.toNat + r.c.toNat))) := by
  unfold DaaRow.covers
  decide

theorem test_witness_Decimal :
    IsBcd 0x00#8 ∧ IsBcd 0x99#8 ∧ IsBcd (regs 0x1299#16 0#16 0x01#8).al ∧ fromBcd 0x99#8 = 99 := by
  unfold IsBcd
  decide

theorem test_witness_CallThenReturn :
    State.reset.storesInside (State.reset.sp - 1) = true ∧ State.reset.storesInside (State.reset.sp - 2) = true ∧
    State.reset.sp - 1 ≠ mirrorAddr ∧ State.reset.sp - 2 ≠ mirrorAddr := by
  decide

theorem test_witness_ReturnFromInterrupt :
    State.reset.readsInside 0xFFFE#16 = true ∧ State.reset.readsInside (0xFFFE#16 + 1) = true ∧
    State.reset.readsInside (0xFFFE#16 + 2) = true ∧ State.reset.readsInside (0xFFFE#16 + 3) = true := by
  decide

/-- JMP 1234H at FFFEH, its last byte at 0000H. -/
def jumpAtTheTop : State :=
  { State.reset with pc := 0xFFFE#16, mem := [(0x0000, 0x34#8), (0xFFFE, 0x21#8), (0xFFFF, 0x12#8)] }

theorem test_witness_StepRunsDecodedInstruction :
    jumpAtTheTop.boundary.reset = false ∧
    decode (fetch (jumpAtTheTop.withInputs jumpAtTheTop.inputs.tail)).1 = .ok (.jmpExt 0x1234#16, []) :=
  ⟨rfl, rfl⟩

theorem test_witness_StepRunsTheBytesAtPc :
    (Instr.jmpExt 0x1234#16).wellFormed = true ∧
    ∀ k, k < (encode (.jmpExt 0x1234#16)).length →
      jumpAtTheTop.readsInside (jumpAtTheTop.pc + BitVec.ofNat 16 k) = true ∧
      (encode (.jmpExt 0x1234#16))[k]? = some (jumpAtTheTop.byteAt (jumpAtTheTop.pc + BitVec.ofNat 16 k)) := by
  decide

theorem test_witness_StepStopsOnlyAtTheUnassignedByte :
    State.byteAt { State.reset with mem := [(0x0000, 0x44#8)] } 0x0000#16 = 0x44#8 ∧
    jumpAtTheTop.byteAt jumpAtTheTop.pc ≠ 0x44#8 ∧
    State.boundary { State.reset with inputs := [⟨true, none⟩] } = { reset := true, irq := none } := by
  decide

theorem test_witness_StepConsumesOneBoundary : ∃ t, step jumpAtTheTop = .next t := ⟨_, rfl⟩

theorem test_witness_EveryStepKeepsTheInvariant : jumpAtTheTop.inv = true ∧ ∃ t, step jumpAtTheTop = .next t :=
  ⟨by decide, _, rfl⟩

theorem test_witness_ResetStep :
    State.boundary { mapped with inputs := [⟨true, some ⟨0, 0#2⟩⟩] } = { reset := true, irq := some ⟨0, 0#2⟩ } ∧
    mapped.readsInside 0xFFFD#16 = true ∧ mapped.readsInside 0xFFFE#16 = true ∧
    mapped.readsInside 0xFFFF#16 = true := by
  decide

/-- A state at a boundary with request number 23 of a level presented, I = 1, and IL in the upper half of the CCR. -/
def requested (level : BitVec 2) (psl : Byte) : State :=
  { regs 0#16 0#16 psl with sp := 0x0300#16, inputs := [⟨false, some ⟨23, level⟩⟩] }

theorem test_witness_InterruptAcceptance :
    (requested 2#2 0x70#8).boundary = { reset := false, irq := some ⟨23, 2#2⟩ } ∧
    23 < (requested 2#2 0x70#8).product.nIrq.val ∧ (requested 2#2 0x70#8).ps.il = 3#2 ∧
    (requested 2#2 0x70#8).ps.i = true ∧ (requested 3#2 0x70#8).ps.il.toNat ≤ (3#2 : BitVec 2).toNat ∧
    (requested 0#2 0x40#8).ps.il = 0#2 ∧ (requested 0#2 0x30#8).ps.i = false := by
  decide

theorem test_witness_InterruptEntry :
    (∀ a ∈ entryFrame (requested 2#2 0x70#8), (requested 2#2 0x70#8).storesInside a = true) ∧
    (requested 2#2 0x70#8).readsInside (irqVector 23) = true ∧
    (requested 2#2 0x70#8).readsInside (irqVector 23 + 1) = true ∧
    mirrorAddr ∉ entryFrame (requested 2#2 0x70#8) :=
  ⟨List.all_eq_true.1 (by decide), by decide, by decide, by decide⟩

/-- A frame that meets 0078H. -/
theorem test_witness_EntryThenReturn :
    (∀ a ∈ entryFrame { mapped with sp := 0x0084#16 }, State.storesInside { mapped with sp := 0x0084#16 } a = true) ∧
    (∀ a ∈ entryFrame { State.reset with sp := 0x0079#16 }, State.storesInside State.reset a = true) ∧
    mirrorAddr ∈ entryFrame { State.reset with sp := 0x0079#16 } :=
  ⟨List.all_eq_true.1 (by decide), List.all_eq_true.1 (by decide), by decide⟩

theorem test_witness_OnlyFourEventsChangeIl :
    (ran [0x00#8] { requested 1#2 0x70#8 with inputs := [⟨false, none⟩, ⟨false, some ⟨0, 1#2⟩⟩] }).map (·.ps.il) =
      some 1#2 ∧
    (ran [0x71#8] (regs 0x0010#16 0#16 0x30#8)).map (·.ps.il) = some 1#2 ∧
    (ran [] { regs 0#16 0#16 0x00#8 with inputs := [⟨true, none⟩] }).map (·.ps.il) = some 3#2 := by
  decide

theorem test_witness_MaskedStepsRunUninterrupted :
    jumpAtTheTop.boundary.reset = false ∧ jumpAtTheTop.ps.i = false ∧
    decode (fetch (jumpAtTheTop.withInputs jumpAtTheTop.inputs.tail)).1 = .ok (.jmpExt 0x1234#16, []) ∧
    Instr.jmpExt 0x1234#16 ≠ .seti ∧ Instr.jmpExt 0x1234#16 ≠ .movwPsA ∧ Instr.jmpExt 0x1234#16 ≠ .reti :=
  ⟨rfl, rfl, rfl, by decide, by decide, by decide⟩

end Sys2Proof.Tests
end

/-! The status register and the mirror of its upper byte at 0078H (10_state R28, R39). -/

namespace Sys2Proof.Machine

/-! ## Bytes and the two parts of PS[15:8] -/

/-- Concatenation as arithmetic on the numbers. -/
theorem append_toNat {m n : Nat} (x : BitVec m) (y : BitVec n) : (x ++ y).toNat = 2 ^ n * x.toNat + y.toNat := by
  rw [BitVec.toNat_append, ← Nat.shiftLeft_add_eq_or_of_lt y.isLt, Nat.shiftLeft_eq, Nat.mul_comm]

theorem Status.high_toNat (p : Status) : p.high.toNat = 8 * p.rp.toNat + p.dp.toNat :=
  append_toNat p.rp p.dp

theorem Status.low_toNat (p : Status) :
    p.low.toNat =
      128 * p.h.toNat + 64 * p.i.toNat + 16 * p.il.toNat + 8 * p.n.toNat + 4 * p.z.toNat + 2 * p.v.toNat +
        p.c.toNat := by
  simp only [Status.low, append_toNat, BitVec.toNat_ofBool]
  omega

theorem Status.withHigh_rp_toNat (v : Byte) (p : Status) : (p.withHigh v).rp.toNat = v.toNat / 8 := by
  have := v.isLt
  simp only [Status.withHigh, BitVec.extractLsb'_toNat, Nat.shiftRight_eq_div_pow]
  omega

theorem Status.withHigh_dp_toNat (v : Byte) (p : Status) : (p.withHigh v).dp.toNat = v.toNat % 8 := by
  simp only [Status.withHigh, BitVec.extractLsb'_toNat, Nat.shiftRight_zero]

/-- PS[15:8] holds RP and DP: writing back what it reads changes nothing. -/
@[simp] theorem Status.withHigh_high_self (p : Status) : p.withHigh p.high = p := by
  have hdpLt := p.dp.isLt
  have hrpSame : (p.withHigh p.high).rp = p.rp := by
    apply BitVec.eq_of_toNat_eq
    rw [Status.withHigh_rp_toNat, p.high_toNat]
    omega
  have hdpSame : (p.withHigh p.high).dp = p.dp := by
    apply BitVec.eq_of_toNat_eq
    rw [Status.withHigh_dp_toNat, p.high_toNat]
    omega
  calc p.withHigh p.high
      = { p with rp := (p.withHigh p.high).rp, dp := (p.withHigh p.high).dp } := rfl
    _ = p := by rw [hrpSame, hdpSame]

/-! ## PS from its bytes and back -/

@[simp] theorem Status.ofBytes_high (psh psl : Byte) : (Status.ofBytes psh psl).high = psh := extract_append_byte psh

@[simp] theorem Status.ofBytes_low (psh psl : Byte) : (Status.ofBytes psh psl).low = psl := by
  simp only [Status.low, Status.ofBytes]
  revert psl
  decide

/-- PS[7:0] holds the flags and IL: loaded again below another upper byte, it changes RP and DP alone. -/
theorem Status.ofBytes_low_eq_withHigh (psh : Byte) (p : Status) : Status.ofBytes psh p.low = p.withHigh psh := by
  obtain ⟨rp, dp, h, i, il, n, z, v, c⟩ := p
  simp only [Status.ofBytes, Status.withHigh, Status.low, Status.mk.injEq, true_and]
  clear psh rp dp
  revert h i il n z v c
  decide

theorem Status.toWord_toNat (p : Status) : p.toWord.toNat = 256 * p.high.toNat + p.low.toNat := join_toNat _ _

theorem Status.ofWord_toWord (p : Status) : Status.ofWord p.toWord = p := by
  simp only [Status.ofWord, Status.toWord, hi_join, lo_join]
  rw [Status.ofBytes_low_eq_withHigh, Status.withHigh_high_self]

theorem Status.toWord_ofWord (w : Word) : (Status.ofWord w).toWord = w := by
  simp only [Status.ofWord, Status.toWord, Status.ofBytes_high, Status.ofBytes_low, join_hi_lo]

/-- Settles O14: the weights are those of the two bytes of PS, and each direction of the correspondence holds byte by
byte. -/
theorem statusLayout : Obligations.StatusLayout := by
  refine ⟨fun p => ?_, Status.ofWord_toWord, Status.toWord_ofWord⟩
  rw [p.toWord_toNat, p.high_toNat, p.low_toNat]
  omega

/-! ## The mirror at 0078H -/

/-- The operand 78H of direct addressing is 0078H in every direct bank (20_memory R66). -/
theorem dirAddr_0x78 (s : State) : dirAddr 0x78#8 s = mirrorAddr := rfl

theorem writeByte_mirror (v : Byte) (s : State) : writeByte mirrorAddr v s = s.withPs (s.ps.withHigh v) := rfl

/-- MOV A,dir leaves in AL the byte that a read of its address returns. -/
theorem exec_movADir_al (dir : Byte) (s : State) :
    ∃ t, exec (.movADir dir) s = .next t ∧ t.al = s.byteAt (dirAddr dir s) :=
  ⟨(withByte (dirAddr dir s) loadA8 s).advance 2, rfl, by simp [withByte_eq, loadA8]⟩

/-- MOV dir,A leaves PS as a byte write of AL to its address leaves it. -/
theorem exec_movDirA_ps (dir : Byte) (s : State) :
    ∃ t, exec (.movDirA dir) s = .next t ∧ t.ps = (writeByte (dirAddr dir s) s.al s).ps :=
  ⟨(writeByte (dirAddr dir s) s.al s).advance 2, rfl, rfl⟩

/-- Settles O9: a read of 0078H is PS[15:8], a write of it is `Status.withHigh`, and the operand 78H of direct addressing
is that address. -/
theorem mirrorAt0078 : Obligations.MirrorAt0078 := by
  intro v s
  obtain ⟨t, ht, hal⟩ := exec_movADir_al 0x78#8 s
  obtain ⟨u, hu, hps⟩ := exec_movDirA_ps 0x78#8 s
  rw [dirAddr_0x78, byteAt_mirror] at hal
  rw [dirAddr_0x78, writeByte_mirror, State.withPs_ps] at hps
  have hread : s.byteAt 0x0078#16 = s.ps.high := byteAt_mirror s
  have hwrite : writeByte 0x0078#16 v s = s.withPs (s.ps.withHigh v) := writeByte_mirror v s
  rw [hread, hwrite]
  exact ⟨s.ps.high_toNat, Status.withHigh_rp_toNat v s.ps, Status.withHigh_dp_toNat v s.ps, Status.withHigh_low v s.ps,
    rfl, ⟨t, ht, by rw [hal, s.ps.high_toNat]⟩,
    u, hu, by rw [hps, Status.withHigh_rp_toNat], by rw [hps, Status.withHigh_dp_toNat]⟩

/-! ## The state after reset -/

/-- A machine without a cell of memory has the invariant. -/
theorem inv_of_mem_nil {s : State} (h : s.mem = []) : s.inv = true := by
  simp [State.inv, State.backed, h]

/-- Settles O53: reset lists no cell of memory. -/
theorem resetHasTheInvariant : Obligations.ResetHasTheInvariant := inv_of_mem_nil State.reset_mem

/-- The map of the machine after reset is empty: the whole space is RAM. -/
theorem reset_readsInside (a : Word) : State.reset.readsInside a = true := by
  simp [State.readsInside, State.kindAt, State.reset, kindIn]

/-- Every byte of the machine after reset reads 00H: PS[15:8] at 0078H, and RAM that holds no cell elsewhere. -/
theorem reset_byteAt (a : Word) : State.reset.byteAt a = 0x00#8 := by
  rw [byteAt_inside (reset_readsInside a)]
  split
  · decide
  · rfl

theorem reset_wordAt (a : Word) : State.reset.wordAt a = 0x0000#16 := by
  rw [State.wordAt, readWord_inside (reset_readsInside a) (reset_readsInside (a + 1)), reset_byteAt, reset_byteAt]
  rfl

/-- Settles O54: the registers stand in `State.reset`, and the reset vector reads its PC. -/
theorem resetValues : Obligations.ResetValues :=
  ⟨rfl, rfl, rfl, rfl, rfl, by decide, rfl, rfl, rfl, rfl, (reset_wordAt _).symm, reset_byteAt _⟩

end Sys2Proof.Machine

/-! The interrupt enable bit I: which instructions keep it, and what a step with I = 0 does (10_state R33, 60_exceptions
R346, R347). -/

namespace Sys2Proof.Machine

/-! ## I under the shared operations -/

@[simp] theorem writeWord_ps_i (a w : Word) (s : State) : (writeWord a w s).ps.i = s.ps.i := by
  rw [writeWord_eq, writeByte_ps_i, writeByte_ps_i]

@[simp] theorem modifyByte_ps_i (a : Word) (f : Byte → Byte) (s : State) : (modifyByte a f s).ps.i = s.ps.i := by
  rw [modifyByte_eq, writeByte_ps_i, readByte_ps]

@[simp] theorem push16_ps_i (w : Word) (s : State) : (push16 w s).ps.i = s.ps.i := by
  rw [push16_eq, State.withSp_ps, writeByte_ps_i, writeByte_ps_i]

@[simp] theorem fetch_ps (s : State) : (fetch s).2.ps = s.ps := by
  rw [fetch_state, State.withBus_ps]

/-! ## I under what the instructions do with their operands -/

@[simp] theorem loadA8_ps_i (v : Byte) (s : State) : (loadA8 v s).ps.i = s.ps.i := rfl
@[simp] theorem loadA16_ps_i (v : Word) (s : State) : (loadA16 v s).ps.i = s.ps.i := rfl
@[simp] theorem addToAl_ps_i (m : Byte) (s : State) : (addToAl m s).ps.i = s.ps.i := rfl
@[simp] theorem subFromAl_ps_i (m : Byte) (s : State) : (subFromAl m s).ps.i = s.ps.i := rfl
@[simp] theorem compareBytes_ps_i (x y : Byte) (s : State) : (compareBytes x y s).ps.i = s.ps.i := rfl
@[simp] theorem compareAl_ps_i (m : Byte) (s : State) : (compareAl m s).ps.i = s.ps.i := rfl
@[simp] theorem andAl_ps_i (m : Byte) (s : State) : (andAl m s).ps.i = s.ps.i := rfl
@[simp] theorem orAl_ps_i (m : Byte) (s : State) : (orAl m s).ps.i = s.ps.i := rfl
@[simp] theorem xorAl_ps_i (m : Byte) (s : State) : (xorAl m s).ps.i = s.ps.i := rfl

@[simp] theorem countReg_ps_i (a : Word) (f : Byte → Byte) (v : Byte → Bool) (s : State) :
    (countReg a f v s).ps.i = s.ps.i := by
  simp [countReg, withBit_eq, Status.countByte, Status.nzByte]

@[simp] theorem divideT_ps_i (s : State) : (divideT s).ps.i = s.ps.i := by
  rw [divideT_eq, State.withPs_ps]

@[simp] theorem decimalAfterAdd_ps_i (s : State) : (decimalAfterAdd s).ps.i = s.ps.i := by
  rw [decimalAfterAdd_eq, State.withPs_ps]

/-! ## I under the instructions -/

/-- The outcome is a next state with the I of `s`. -/
def KeepsI (s : State) (o : Host.Outcome State Fault Refusal) : Prop := ∃ t, o = .next t ∧ t.ps.i = s.ps.i

theorem keepsI_next {s t : State} (h : t.ps.i = s.ps.i) : KeepsI s (.next t) := ⟨t, rfl, h⟩

theorem keepsI_finish {n : Nat} {s t : State} (h : t.ps.i = s.ps.i) : KeepsI s (finish n t) := keepsI_next h

/-- An operation that keeps I keeps it on a byte read from memory too. -/
theorem keepsI_withByte {n : Nat} {a : Word} {k : Byte → State → State} (hk : ∀ v t, (k v t).ps.i = t.ps.i)
    (s : State) : KeepsI s (finish n (withByte a k s)) := by
  apply keepsI_finish
  rw [withByte_eq, hk, readByte_ps]

theorem keepsI_withWord {n : Nat} {a : Word} {k : Word → State → State} (hk : ∀ v t, (k v t).ps.i = t.ps.i)
    (s : State) : KeepsI s (finish n (withWord a k s)) := by
  apply keepsI_finish
  rw [withWord_eq, hk, readWord_ps]

theorem keepsI_pop16 {s t : State} (h : t.ps = (pop16 s).2.ps) : KeepsI s (.next t) := by
  apply keepsI_next
  rw [h, pop16_ps]

theorem keepsI_callv (vct : Nat) (s : State) : KeepsI s (exec (.callv vct) s) := by
  apply keepsI_next
  rw [withWord_eq, State.withPc_ps, push16_ps_i, readWord_ps]

/-- Every instruction but SETI, CLRI, MOVW PS,A and RETI completes with I as it was: no other rule names I, and a store
reaches PS[15:8] at most (10_state R33, 20_memory R79). -/
theorem exec_keepsI (i : Instr) (s : State) (hseti : i ≠ .seti) (hclri : i ≠ .clri) (hps : i ≠ .movwPsA)
    (hreti : i ≠ .reti) : KeepsI s (exec i s) := by
  cases i with
  | seti => exact absurd rfl hseti
  | clri => exact absurd rfl hclri
  | movwPsA => exact absurd rfl hps
  | reti => exact absurd rfl hreti
  -- registers and flags alone
  | movAImm | swap | xchAT | xchwAT | movwAPs | movwSpA | movwIxA | movwEpA | movwAImm | movwSpImm | movwIxImm
  | movwEpImm | movwAPc | movwASp | movwAIx | movwAEp | xchwASp | xchwAIx | xchwAEp | muluA | rolcA | rorcA | cmpA
  | cmpwA | cmpAImm | addcA | addcwA | addcAImm | subcA | subcwA | subcAImm | xorA | xorwA | xorAImm | andA | andwA
  | andAImm | orA | orwA | orAImm | das | incwA | incwSp | incwIx | incwEp | decwA | decwSp | decwIx | decwEp | nop
  | clrc | setc => exact keepsI_finish rfl
  | divuA => exact keepsI_finish (divideT_ps_i s)
  | daa => exact keepsI_finish (decimalAfterAdd_ps_i s)
  -- an operand read from memory
  | movADir | movAAtIx | movAAtEp | movAReg | movAExt | movAAtA => exact keepsI_withByte loadA8_ps_i s
  | movwAAtA | movwAExt | movwADir | movwAAtIx | movwAAtEp => exact keepsI_withWord loadA16_ps_i s
  | cmpADir | cmpAAtIx | cmpAAtEp | cmpAReg => exact keepsI_withByte compareAl_ps_i s
  | addcADir | addcAAtIx | addcAAtEp | addcAReg => exact keepsI_withByte addToAl_ps_i s
  | subcADir | subcAAtIx | subcAAtEp | subcAReg => exact keepsI_withByte subFromAl_ps_i s
  | xorADir | xorAAtIx | xorAAtEp | xorAReg => exact keepsI_withByte xorAl_ps_i s
  | andADir | andAAtIx | andAAtEp | andAReg => exact keepsI_withByte andAl_ps_i s
  | orADir | orAAtIx | orAAtEp | orAReg => exact keepsI_withByte orAl_ps_i s
  | cmpDirImm _ d8 | cmpAtIxImm _ d8 | cmpAtEpImm d8 | cmpRegImm _ d8 =>
    exact keepsI_withByte (fun m => compareBytes_ps_i m d8) s
  | popwA | popwIx => exact keepsI_pop16 rfl
  -- stores
  | movDirA | movAtIxA | movAtEpA | movRegA | movExtA | movAtAT | movDirImm | movAtIxImm | movAtEpImm | movRegImm =>
    exact keepsI_finish (writeByte_ps_i _ _ s)
  | movwAtAT | movwExtA | movwDirA | movwAtIxA | movwAtEpA => exact keepsI_finish (writeWord_ps_i _ _ s)
  | clrb | setb => exact keepsI_finish (modifyByte_ps_i _ _ s)
  | incReg | decReg => exact keepsI_finish (countReg_ps_i _ _ _ s)
  | pushwA | pushwIx => exact keepsI_finish (push16_ps_i _ s)
  -- branches
  | jmpExt | jmpAtA | xchwAPc | bnc | bc | bp | bn | bnz | bz | bge | blt | bbc | bbs => exact keepsI_next rfl
  | callExt => exact keepsI_next (push16_ps_i _ s)
  | callv vct => exact keepsI_callv vct s
  | ret => exact keepsI_pop16 rfl

/-- From I = 0 only SETI, MOVW PS,A and RETI can lead to I = 1. -/
theorem exec_masked (i : Instr) (s : State) (hi : s.ps.i = false) (hseti : i ≠ .seti) (hps : i ≠ .movwPsA)
    (hreti : i ≠ .reti) : ∃ t, exec i s = .next t ∧ t.ps.i = false := by
  by_cases hclri : i = .clri
  · subst hclri
    exact ⟨_, rfl, rfl⟩
  · obtain ⟨t, ht, hkeep⟩ := exec_keepsI i s hseti hclri hps hreti
    exact ⟨t, ht, hkeep.trans hi⟩

/-! ## Steps -/

/-- With I = 0 no request is accepted (60_exceptions R346). -/
theorem sampleInterrupt_masked {s : State} (hi : s.ps.i = false) : sampleInterrupt s = s := by
  rcases sampleInterrupt_cases s with ⟨hsame, -⟩ | ⟨r, -, -, haccepts, -⟩
  · exact hsame
  · obtain ⟨-, hone, -⟩ := (accepts_iff s r).1 haccepts
    rw [hi] at hone
    contradiction

/-- A step without reset, by the instruction it decodes and the state that instruction leaves (60_exceptions R367). -/
theorem step_eq_sampleInterrupt {s t : State} {i : Instr} {rest : List Byte} (hreset : s.boundary.reset = false)
    (hdecode : decode (fetch (s.withInputs s.inputs.tail)).1 = .ok (i, rest))
    (hexec : exec i (fetch (s.withInputs s.inputs.tail)).2 = .next t) : step s = .next (sampleInterrupt t) := by
  simp only [step, hreset, Bool.false_eq_true, if_false, hdecode, hexec]

/-- Settles O60: the instruction leaves I = 0, and then the boundary that ends it accepts nothing. -/
theorem maskedStepsRunUninterrupted : Obligations.MaskedStepsRunUninterrupted := by
  intro s i rest hreset hi hdecode hseti hps hreti
  have hfetched : (fetch (s.withInputs s.inputs.tail)).2.ps.i = false := by
    rw [fetch_ps, State.withInputs_ps, hi]
  obtain ⟨t, hexec, hmasked⟩ := exec_masked i _ hfetched hseti hps hreti
  have hstep := step_eq_sampleInterrupt hreset hdecode hexec
  rw [sampleInterrupt_masked hmasked] at hstep
  exact ⟨t, hexec, hstep, hmasked⟩

end Sys2Proof.Machine

/-! Bytes and words of memory, the canonical memory list, the addresses of operands and vectors, and the stack
(20_memory R60 to R75). -/

namespace Sys2Proof.Machine

/-! ## A byte written -/

/-- A byte that the machine keeps reads back as written. -/
theorem byteAt_writeByte_same {a : Word} {s : State} (v : Byte) (ha : s.storesInside a = true) :
    (writeByte a v s).byteAt a = v := by
  have hinside : (writeByte a v s).readsInside a = true :=
    (writeByte_readsInside ..).trans (readsInside_of_storesInside ha)
  rw [byteAt_inside hinside]
  rcases writeByte_cases a v s with ⟨rfl, h⟩ | ⟨hm, -, h⟩ | ⟨hm, hk, -⟩
  · rw [h, if_pos rfl, State.withPs_ps, Status.withHigh_high]
  · rw [h, if_neg hm, State.withMem_mem, Memory.read_write_same]
  · simp [State.storesInside, hm, hk] at ha

/-- A byte that the machine answers itself reads as before after a write of another address. -/
theorem byteAt_writeByte_other {a b : Word} {v : Byte} {s : State} (hb : s.readsInside b = true) (hne : b ≠ a) :
    (writeByte a v s).byteAt b = s.byteAt b := by
  rcases writeByte_cases a v s with ⟨rfl, h⟩ | ⟨-, -, h⟩ | ⟨-, -, h⟩ <;> rw [h]
  · exact byteAt_inside_congr hb rfl rfl fun hm => absurd hm hne
  · rw [byteAt_inside ((State.withMem_readsInside ..).trans hb), byteAt_inside hb, State.withMem_mem, State.withMem_ps,
      Memory.read_write_other _ _ fun hn => hne (BitVec.eq_of_toNat_eq hn)]
  · exact byteAt_inside_congr hb rfl rfl fun _ => rfl

/-- Settles O6: the rule for the byte written and the rule for every other. -/
theorem byteWriteThenRead : Obligations.ByteWriteThenRead := fun _ v _ ha =>
  ⟨byteAt_writeByte_same v ha, fun _ hne hb => byteAt_writeByte_other hb hne⟩

/-- The environment sees a write exactly where the machine does not keep it. -/
theorem writeByte_bus_sent (a : Word) (v : Byte) (s : State) :
    (writeByte a v s).bus = Claims.sent s a v ++ s.bus := by
  rw [writeByte_bus, Claims.sent]
  split <;> rfl

/-- What a write sends depends on the product alone. -/
theorem sent_congr {s t : State} (h : t.product = s.product) (a : Word) (v : Byte) :
    Claims.sent t a v = Claims.sent s a v := by
  rw [Claims.sent, Claims.sent, storesInside_congr h]

/-! ## A word written -/

/-- A word stands on two different bytes, across FFFFH too (20_memory R75). -/
theorem word_ne_add_one (a : Word) : a ≠ a + 1 := by bv_omega

theorem byteAt_writeWord_hi {a : Word} {s : State} (w : Word) (ha : s.storesInside a = true) :
    (writeWord a w s).byteAt a = hi w := by
  have hinside : (writeByte a (hi w) s).readsInside a = true :=
    (writeByte_readsInside ..).trans (readsInside_of_storesInside ha)
  rw [writeWord_eq, byteAt_writeByte_other hinside (word_ne_add_one a), byteAt_writeByte_same _ ha]

theorem byteAt_writeWord_lo {a : Word} {s : State} (w : Word) (ha : s.storesInside (a + 1) = true) :
    (writeWord a w s).byteAt (a + 1) = lo w := by
  rw [writeWord_eq, byteAt_writeByte_same _ ((writeByte_storesInside ..).trans ha)]

theorem byteAt_writeWord_other {a b w : Word} {s : State} (hb : s.readsInside b = true) (hne : b ≠ a)
    (hne' : b ≠ a + 1) : (writeWord a w s).byteAt b = s.byteAt b := by
  rw [writeWord_eq, byteAt_writeByte_other ((writeByte_readsInside ..).trans hb) hne', byteAt_writeByte_other hb hne]

/-- The word at an address is its two bytes, the upper one first (20_memory R64). -/
theorem wordAt_inside {a : Word} {s : State} (h : s.readsInside a = true) (h1 : s.readsInside (a + 1) = true) :
    s.wordAt a = join (s.byteAt a) (s.byteAt (a + 1)) := by
  rw [State.wordAt, readWord_inside h h1]

/-- Settles O7: the upper byte survives the write of the lower one, since the two addresses differ. -/
theorem wordWriteThenRead : Obligations.WordWriteThenRead := by
  intro a w s ha ha1
  have hhi := byteAt_writeWord_hi w ha
  have hlo := byteAt_writeWord_lo w ha1
  refine ⟨by rw [hhi, hi_toNat], by rw [hlo, lo_toNat], ?_, fun b hne hne' hb => byteAt_writeWord_other hb hne hne'⟩
  rw [wordAt_inside ((writeWord_readsInside ..).trans (readsInside_of_storesInside ha))
    ((writeWord_readsInside ..).trans (readsInside_of_storesInside ha1)), hhi, hlo, join_hi_lo]

/-! ## The canonical memory list -/

/-- At the address of its head a canonical list does not read as unlisted. -/
theorem Memory.read_head_ne {k : Nat} {v : Byte} {m : Memory} (h : Memory.wf ((k, v) :: m) = true) :
    Memory.read ((k, v) :: m) k ≠ unlisted := by
  obtain ⟨⟨-, -, hv⟩, -, -⟩ := (Memory.wf_cons k v m).1 h
  rwa [Memory.read_cons, if_pos rfl]

/-- Below its head a canonical list reads as unlisted. -/
theorem Memory.read_below_head {k a : Nat} {v : Byte} {m : Memory} (h : Memory.wf ((k, v) :: m) = true) (ha : a < k) :
    Memory.read ((k, v) :: m) a = unlisted := by
  refine Memory.read_of_lt fun cell hcell => ?_
  rcases List.mem_cons.1 hcell with rfl | hcell
  · exact ha
  · exact Nat.lt_trans ha (Memory.wf_lt h cell hcell)

/-- Of two canonical lists that read alike, neither begins below the other. -/
theorem Memory.head_le {k l : Nat} {v w : Byte} {m n : Memory} (hm : Memory.wf ((k, v) :: m) = true)
    (hn : Memory.wf ((l, w) :: n) = true) (hread : ∀ a, Memory.read ((k, v) :: m) a = Memory.read ((l, w) :: n) a) :
    l ≤ k := by
  by_contra hlt
  exact Memory.read_head_ne hm ((hread k).trans (Memory.read_below_head hn (by omega)))

/-- Lists that read alike, with canonical lists behind one head, read alike behind it. -/
theorem Memory.read_tail_eq {k : Nat} {v w : Byte} {m n : Memory} (hm : Memory.wf ((k, v) :: m) = true)
    (hn : Memory.wf ((k, w) :: n) = true) (hread : ∀ a, Memory.read ((k, v) :: m) a = Memory.read ((k, w) :: n) a)
    (a : Nat) : m.read a = n.read a := by
  by_cases ha : a = k
  · subst ha
    rw [Memory.read_of_lt (Memory.wf_lt hm), Memory.read_of_lt (Memory.wf_lt hn)]
  · have h := hread a
    rwa [Memory.read_cons, Memory.read_cons, if_neg ha, if_neg ha] at h

/-- Settles O8, by induction on both lists: equal heads, since neither begins below the other, and then equal tails. -/
theorem canonicalMemoryIsUnique : Obligations.CanonicalMemoryIsUnique := by
  intro m
  induction m with
  | nil =>
    intro n _ hn hread
    cases n with
    | nil => rfl
    | cons cell n => exact absurd (hread cell.1).symm (Memory.read_head_ne hn)
  | cons cell m ih =>
    intro n hm hn hread
    cases n with
    | nil => exact absurd (hread cell.1) (Memory.read_head_ne hm)
    | cons cell' n =>
      obtain ⟨k, v⟩ := cell
      obtain ⟨l, w⟩ := cell'
      obtain rfl : k = l := Nat.le_antisymm (Memory.head_le hn hm fun a => (hread a).symm) (Memory.head_le hm hn hread)
      have hvalue : v = w := by simpa [Memory.read_cons] using hread k
      obtain ⟨-, -, hmTail⟩ := (Memory.wf_cons k v m).1 hm
      obtain ⟨-, -, hnTail⟩ := (Memory.wf_cons k w n).1 hn
      rw [hvalue, ih n hmTail hnTail (Memory.read_tail_eq hm hn hread)]

/-! ## Addresses of operands and vectors -/

theorem dirAddr_toNat (d : Byte) (s : State) :
    (dirAddr d s).toNat = if d.toNat < 0x80 then d.toNat else d.toNat + 128 * s.ps.dp.toNat := by
  have hmsb : d.getLsbD 7 = decide (0x80 ≤ d.toNat) := BitVec.msb_eq_decide d
  have hd := d.isLt
  have hdp := s.ps.dp.isLt
  rw [dirAddr, hmsb]
  by_cases h : d.toNat < 0x80
  · rw [if_neg (by simpa using h), if_pos h, BitVec.toNat_setWidth]
    omega
  · rw [if_pos (by simpa using h), if_neg h, BitVec.toNat_add, BitVec.toNat_mul, BitVec.toNat_setWidth,
      BitVec.toNat_setWidth, BitVec.toNat_ofNat]
    omega

/-- MOVW A,dir leaves in A the word that a word read of its address returns. -/
theorem exec_movwADir_a (dir : Byte) (s : State) :
    ∃ t, exec (.movwADir dir) s = .next t ∧ t.a = s.wordAt (dirAddr dir s) :=
  ⟨(withWord (dirAddr dir s) loadA16 s).advance 2, rfl, rfl⟩

/-- Settles O10: `dirAddr` as a number in each half of the operand's range, and the word read from it. -/
theorem directAddresses : Obligations.DirectAddresses := by
  intro d s
  have haddr := dirAddr_toNat d s
  have hd := d.isLt
  refine ⟨fun h => by rw [haddr, if_pos h], fun h => ?_, fun hinside hinside1 => ?_⟩
  · rw [haddr, if_neg (by omega)]
    omega
  · obtain ⟨t, hexec, ha⟩ := exec_movwADir_a d s
    exact ⟨t, hexec, by rw [ha, wordAt_inside hinside hinside1, join_toNat]⟩

theorem regAddr_toNat {i : Nat} (hi : i < 8) (s : State) : (regAddr i s).toNat = 0x0100 + 8 * s.ps.rp.toNat + i := by
  rw [regAddr, append_toNat, append_toNat, BitVec.toNat_ofNat, BitVec.toNat_ofNat]
  omega

/-- Settles O11: the address as a number is injective in the bank and the number. -/
theorem registerAddresses : Obligations.RegisterAddresses := by
  intro i s hi
  refine ⟨regAddr_toNat hi s, ?_, fun j t hj => ⟨fun h => ?_, fun ⟨hrp, hij⟩ => by rw [regAddr, regAddr, hrp, hij]⟩⟩
  · revert i
    decide
  · have hnumber := congrArg BitVec.toNat h
    rw [regAddr_toNat hi, regAddr_toNat hj] at hnumber
    exact ⟨BitVec.eq_of_toNat_eq (by omega), by omega⟩

/-- Settles O12: neither table leaves the address space. -/
theorem vectorAddresses : Obligations.VectorAddresses := by
  refine ⟨fun k hk => ?_, fun n hn => ?_, rfl, rfl, rfl, rfl⟩
  · rw [callvAddr, BitVec.toNat_add, BitVec.toNat_ofNat, BitVec.toNat_ofNat]
    omega
  · rw [irqVector, BitVec.toNat_sub, BitVec.toNat_ofNat, BitVec.toNat_ofNat]
    omega

/-- Settles O5: each word is decoded by its row of the table. -/
theorem writtenOutWordsDecode : Obligations.WrittenOutWordsDecode :=
  ⟨rfl, rfl, rfl, rfl, rfl, rfl, rfl, rfl, rfl, rfl, rfl⟩

end Sys2Proof.Machine

/-! The stack: what a push and a pop do, the instructions made of them, and a call that returns at once (20_memory R70,
42_branch R296 to R301, 43_other R321 to R324). -/

namespace Sys2Proof.Machine

open Sys2Proof.Claims

/-! ## A push and a pop -/

theorem sub_two_add_one (a : Word) : a - 2 + 1 = a - 1 := by bv_omega

theorem sub_two_add_two (a : Word) : a - 2 + 2 = a := by bv_omega

theorem sub_one_ne_sub_two (a : Word) : a - 1 ≠ a - 2 := by bv_omega

theorem sub_two_toNat (a : Word) : (a - 2).toNat = (a.toNat + 65534) % 65536 := by bv_omega

theorem add_two_toNat (a : Word) : (a + 2).toNat = (a.toNat + 2) % 65536 := BitVec.toNat_add a 2

@[simp] theorem push16_readsInside (w : Word) (s : State) (b : Word) :
    (push16 w s).readsInside b = s.readsInside b :=
  readsInside_congr (push16_product ..) b

theorem byteAt_push16_hi {s : State} (w : Word) (h : s.storesInside (s.sp - 2) = true) :
    (push16 w s).byteAt (s.sp - 2) = hi w := by
  rw [push16_eq, State.withSp_byteAt, byteAt_writeByte_same _ ((writeByte_storesInside ..).trans h)]

/-- The lower byte, written first, survives the write of the upper one. -/
theorem byteAt_push16_lo {s : State} (w : Word) (h : s.storesInside (s.sp - 1) = true) :
    (push16 w s).byteAt (s.sp - 1) = lo w := by
  have hinside : (writeByte (s.sp - 1) (lo w) s).readsInside (s.sp - 1) = true :=
    (writeByte_readsInside ..).trans (readsInside_of_storesInside h)
  rw [push16_eq, State.withSp_byteAt, byteAt_writeByte_other hinside (sub_one_ne_sub_two s.sp),
    byteAt_writeByte_same _ h]

/-- The lower byte of a push is sent first (20_memory R70). -/
theorem push16_bus (w : Word) (s : State) :
    (push16 w s).bus = sent s (s.sp - 2) (hi w) ++ sent s (s.sp - 1) (lo w) ++ s.bus := by
  rw [push16_eq, State.withSp_bus, writeByte_bus_sent, writeByte_bus_sent, sent_congr (writeByte_product ..),
    List.append_assoc]

/-- A word pushed is found at the new SP, wherever PC goes meanwhile. -/
theorem wordAt_withPc_push16 {s : State} (w x : Word) (h1 : s.storesInside (s.sp - 1) = true)
    (h2 : s.storesInside (s.sp - 2) = true) : ((push16 w s).withPc x).wordAt (s.sp - 2) = w := by
  have hhi : ((push16 w s).withPc x).readsInside (s.sp - 2) = true := by
    rw [State.withPc_readsInside, push16_readsInside, readsInside_of_storesInside h2]
  have hlo : ((push16 w s).withPc x).readsInside (s.sp - 2 + 1) = true := by
    rw [State.withPc_readsInside, push16_readsInside, sub_two_add_one, readsInside_of_storesInside h1]
  rw [wordAt_inside hhi hlo, State.withPc_byteAt, State.withPc_byteAt, sub_two_add_one, byteAt_push16_hi w h2,
    byteAt_push16_lo w h1, join_hi_lo]

/-- A push elsewhere than at 0078H leaves PS. -/
theorem push16_ps {s : State} (w : Word) (h1 : s.sp - 1 ≠ mirrorAddr) (h2 : s.sp - 2 ≠ mirrorAddr) :
    (push16 w s).ps = s.ps := by
  rw [push16_eq, State.withSp_ps, writeByte_ps, if_neg h2, writeByte_ps, if_neg h1]

/-- Settles O13: the two byte writes of a push, the two byte reads of a pop, and the word of a push found by the pop. -/
theorem pushAndPop : Obligations.PushAndPop := by
  intro w s
  refine ⟨sub_two_toNat s.sp, fun h => ?_, fun h => ?_, push16_bus w s, join_toNat _ _, rfl, add_two_toNat s.sp,
    pop16_mem s, fun h2 h1 => ⟨?_, ?_⟩⟩
  · rw [push16_sp, byteAt_push16_hi w h, hi_toNat]
  · rw [push16_sp, sub_two_add_one, byteAt_push16_lo w h, lo_toNat]
  · exact wordAt_withPc_push16 w (push16 w s).pc h1 h2
  · rw [pop16_sp, push16_sp, sub_two_add_two]

/-! ## The stack instructions -/

/-- An instruction that leaves PC at `nextPC` (00_scope R13). -/
theorem advances_of_pc {n : Nat} {s t : State} (h : t.pc = s.nextPC n) : Advances n s t := by
  rw [Advances, h, State.nextPC, BitVec.toNat_add, BitVec.toNat_ofNat, Nat.add_mod_mod]

/-- An instruction whose effect is one push, and a value for PC. -/
theorem pushes_of_exec {i : Instr} {w x : Word} {s : State} (h : exec i s = .next ((push16 w s).withPc x)) :
    Pushes i w s ((push16 w s).withPc x) := by
  refine ⟨h, push16_sp w s, fun hinside => ?_, fun hinside => ?_⟩
  · rw [State.withPc_byteAt, byteAt_push16_hi w hinside, hi_toNat]
  · rw [State.withPc_byteAt, byteAt_push16_lo w hinside, lo_toNat]

/-! PUSHW A and PUSHW IX are a push and `PC <- nextPC`. -/

theorem exec_pushwA (s : State) : exec .pushwA s = .next ((push16 s.a s).withPc (s.nextPC 1)) := by
  rw [← push16_nextPC s.a s 1]
  rfl

theorem exec_pushwIx (s : State) : exec .pushwIx s = .next ((push16 s.ix s).withPc (s.nextPC 1)) := by
  rw [← push16_nextPC s.ix s 1]
  rfl

/-! RET and the two pops take the word at SP to a register. -/

theorem exec_ret (s : State) : exec .ret s = .next ((pop16 s).2.withPc (s.wordAt s.sp)) := rfl

theorem exec_popwA (s : State) : exec .popwA s = .next (((pop16 s).2.withA (s.wordAt s.sp)).withPc (s.nextPC 1)) := by
  rw [← pop16_nextPC s 1]
  rfl

theorem exec_popwIx (s : State) :
    exec .popwIx s = .next (((pop16 s).2.withIx (s.wordAt s.sp)).withPc (s.nextPC 1)) := by
  rw [← pop16_nextPC s 1]
  rfl

/-- Settles O44: each of the five is a push or a pop and a write of one register, and the rest is as the push or the pop
leaves it. -/
theorem stackInstructions : Obligations.StackInstructions := by
  intro s
  refine ⟨⟨_, pushes_of_exec (exec_pushwA s), advances_of_pc rfl, push16_a s.a s, push16_ps_low s.a s,
      push16_bus s.a s⟩,
    ⟨_, pushes_of_exec (exec_pushwIx s), advances_of_pc rfl, push16_ix s.ix s, push16_ps_low s.ix s,
      push16_bus s.ix s⟩,
    ⟨_, exec_ret s, rfl, add_two_toNat s.sp, pop16_ps s, pop16_mem s, pop16_a s, pop16_t s⟩,
    ⟨_, exec_popwA s, advances_of_pc rfl, rfl, add_two_toNat s.sp, pop16_ps s, pop16_mem s, pop16_t s⟩,
    ⟨_, exec_popwIx s, advances_of_pc rfl, rfl, add_two_toNat s.sp, pop16_ps s, pop16_mem s, pop16_a s, pop16_t s⟩⟩

/-! ## A call that returns at once -/

/-- PC is `w`, and SP, every other register and PS[7:0] are as in `s`; PS too where the stack is not at 0078H. -/
def ComesBackTo (w : Word) (s u : State) : Prop :=
  u.pc = w ∧ u.sp = s.sp ∧ u.a = s.a ∧ u.t = s.t ∧ u.ix = s.ix ∧ u.ep = s.ep ∧ u.ps.low = s.ps.low ∧
    (s.sp - 1 ≠ mirrorAddr → s.sp - 2 ≠ mirrorAddr → u.ps = s.ps)

/-- RET after a push, wherever the push went on to, goes to the word pushed (42_branch R299, R301). -/
theorem ret_after_push {s : State} (w x : Word) (h1 : s.storesInside (s.sp - 1) = true)
    (h2 : s.storesInside (s.sp - 2) = true) :
    ∃ u, exec .ret ((push16 w s).withPc x) = .next u ∧ ComesBackTo w s u := by
  refine ⟨_, exec_ret _, wordAt_withPc_push16 w x h1 h2, sub_two_add_two s.sp, ?_, ?_, ?_, ?_, ?_, fun hm1 hm2 => ?_⟩
  · rw [State.withPc_a, pop16_a, State.withPc_a, push16_a]
  · rw [State.withPc_t, pop16_t, State.withPc_t, push16_t]
  · rw [State.withPc_ix, pop16_ix, State.withPc_ix, push16_ix]
  · rw [State.withPc_ep, pop16_ep, State.withPc_ep, push16_ep]
  · rw [State.withPc_ps, pop16_ps, State.withPc_ps, push16_ps_low]
  · rw [State.withPc_ps, pop16_ps, State.withPc_ps, push16_ps w hm1 hm2]

/-- A read of the vector leaves everything that a return comes back to. -/
theorem comesBackTo_of_readWord {a w : Word} {s u : State} (h : ComesBackTo w (readWord a s).2 u) :
    ComesBackTo w s u := by
  simpa only [ComesBackTo, readWord_sp, readWord_a, readWord_t, readWord_ix, readWord_ep, readWord_ps] using h

/-- Settles O45: both calls push the address after them, CALLV after the read of its vector, and RET pops it. -/
theorem callThenReturn : Obligations.CallThenReturn := by
  intro s h1 h2
  refine ⟨fun ext => ?_, fun k _ => ?_⟩
  · obtain ⟨u, hret, hback⟩ := ret_after_push (s.nextPC 3) ext h1 h2
    exact ⟨_, u, rfl, hret, hback⟩
  · have h1' : (readWord (callvAddr k) s).2.storesInside ((readWord (callvAddr k) s).2.sp - 1) = true := by
      rw [readWord_sp, readWord_storesInside, h1]
    have h2' : (readWord (callvAddr k) s).2.storesInside ((readWord (callvAddr k) s).2.sp - 2) = true := by
      rw [readWord_sp, readWord_storesInside, h2]
    obtain ⟨u, hret, hback⟩ := ret_after_push (s.nextPC 1) (s.wordAt (callvAddr k)) h1' h2'
    exact ⟨_, u, rfl, hret, comesBackTo_of_readWord hback⟩

end Sys2Proof.Machine

/-! What every instruction does outside the registers: its reads, then its writes, at the addresses that Safety lists
(20_memory R76). The invariant of memory, the frame of memory and the frame of the environment follow from that one
fact. -/

namespace Sys2Proof.Machine

/-! ## Sequences of byte accesses -/

/-- The state after a byte read of each address, in order. -/
def readAll (rmw : Bool) (reads : List Word) (s : State) : State :=
  reads.foldl (fun u a => (readByte rmw a u).2) s

/-- The state after a byte write of each address, in order. -/
def writeAll (writes : List (Word × Byte)) (s : State) : State :=
  writes.foldl (fun u w => writeByte w.1 w.2 u) s

@[simp] theorem readAll_nil (rmw : Bool) (s : State) : readAll rmw [] s = s := rfl

@[simp] theorem readAll_cons (rmw : Bool) (a : Word) (reads : List Word) (s : State) :
    readAll rmw (a :: reads) s = readAll rmw reads (readByte rmw a s).2 := rfl

@[simp] theorem writeAll_nil (s : State) : writeAll [] s = s := rfl

@[simp] theorem writeAll_cons (w : Word × Byte) (writes : List (Word × Byte)) (s : State) :
    writeAll (w :: writes) s = writeAll writes (writeByte w.1 w.2 s) := rfl

/-- Reads change at most the record of what the environment has seen. -/
theorem readAll_state (rmw : Bool) (reads : List Word) (s : State) :
    readAll rmw reads s = s.withBus (readAll rmw reads s).bus := by
  induction reads generalizing s with
  | nil => rfl
  | cons a reads ih => exact State.withBus_trans (readByte_state rmw a s) (ih _)

@[simp] theorem writeAll_product (writes : List (Word × Byte)) (s : State) :
    (writeAll writes s).product = s.product := by
  induction writes generalizing s with
  | nil => rfl
  | cons w writes ih => rw [writeAll_cons, ih, writeByte_product]

@[simp] theorem writeAll_inputs (writes : List (Word × Byte)) (s : State) :
    (writeAll writes s).inputs = s.inputs := by
  induction writes generalizing s with
  | nil => rfl
  | cons w writes ih => rw [writeAll_cons, ih, writeByte_inputs]

/-- Writes keep the invariant. -/
theorem inv_writeAll (writes : List (Word × Byte)) {s : State} (h : s.inv = true) : (writeAll writes s).inv = true := by
  induction writes generalizing s with
  | nil => exact h
  | cons w writes ih => exact ih (inv_writeByte w.1 w.2 h)

theorem byteAt_writeAll_other {writes : List (Word × Byte)} {b : Word} {s : State} (hb : s.readsInside b = true)
    (hne : b ∉ writes.map Prod.fst) : (writeAll writes s).byteAt b = s.byteAt b := by
  induction writes generalizing s with
  | nil => rfl
  | cons w writes ih =>
    obtain ⟨hhead, htail⟩ := not_or.1 (List.mem_cons.not.1 hne)
    rw [writeAll_cons, ih ((writeByte_readsInside ..).trans hb) htail, byteAt_writeByte_other hb hhead]

/-! ## What the environment sees of a sequence of accesses -/

section

open Sys2Proof.Claims

/-- The environment sees a read exactly where the machine does not answer it. -/
theorem readByte_seen (rmw : Bool) (a : Word) (s : State) :
    ∃ seen, (readByte rmw a s).2.bus = seen ++ s.bus ∧
      seen.map accessOf = if s.readsInside a then [] else [.read a] := by
  rcases readByte_cases rmw a s with ⟨ha, h⟩ | ⟨ha, hk, h⟩ | ⟨ha, hk, h⟩ <;> rw [h]
  · exact ⟨[], rfl, by simp [State.readsInside, ha]⟩
  · exact ⟨[], rfl, by rcases hk with hk | hk <;> simp [State.readsInside, hk]⟩
  · exact ⟨[_], rfl, by rcases hk with hk | hk <;> simp [State.readsInside, ha, hk, accessOf]⟩

theorem readAll_seen (rmw : Bool) (reads : List Word) (s : State) :
    ∃ seen, (readAll rmw reads s).bus = seen ++ s.bus ∧
      seen.map accessOf = ((reads.filter (fun a => !s.readsInside a)).map .read).reverse := by
  induction reads generalizing s with
  | nil => exact ⟨[], rfl, rfl⟩
  | cons a reads ih =>
    obtain ⟨first, hfirst, hfirstMap⟩ := readByte_seen rmw a s
    obtain ⟨later, hlater, hlaterMap⟩ := ih (readByte rmw a s).2
    refine ⟨later ++ first, by rw [readAll_cons, hlater, hfirst, List.append_assoc], ?_⟩
    rw [List.map_append, hlaterMap, hfirstMap]
    cases hin : s.readsInside a <;> simp [hin]

theorem writeAll_seen (writes : List (Word × Byte)) (s : State) :
    ∃ seen, (writeAll writes s).bus = seen ++ s.bus ∧
      seen.map accessOf = (((writes.map Prod.fst).filter (fun a => !s.storesInside a)).map .write).reverse := by
  induction writes generalizing s with
  | nil => exact ⟨[], rfl, rfl⟩
  | cons w writes ih =>
    obtain ⟨later, hlater, hlaterMap⟩ := ih (writeByte w.1 w.2 s)
    refine ⟨later ++ sent s w.1 w.2, by rw [writeAll_cons, hlater, writeByte_bus_sent, List.append_assoc], ?_⟩
    rw [List.map_append, hlaterMap]
    cases hin : s.storesInside w.1 <;> simp [hin, sent, accessOf]

end

/-! ## The accesses of one instruction -/

/-- The two states agree in memory, the product, the inputs and what the environment has seen. -/
structure SameOutside (u t : State) : Prop where
  mem : t.mem = u.mem
  product : t.product = u.product
  inputs : t.inputs = u.inputs
  bus : t.bus = u.bus

/-- The operation changes registers and PS[7:0] alone. -/
def OnlyRegisters (k : State → State) : Prop := ∀ u, SameOutside u (k u) ∧ (k u).ps.high = u.ps.high

theorem onlyRegisters_loadA8 (v : Byte) : OnlyRegisters (loadA8 v) := fun _ => ⟨⟨rfl, rfl, rfl, rfl⟩, rfl⟩
theorem onlyRegisters_loadA16 (v : Word) : OnlyRegisters (loadA16 v) := fun _ => ⟨⟨rfl, rfl, rfl, rfl⟩, rfl⟩
theorem onlyRegisters_compareBytes (x y : Byte) : OnlyRegisters (compareBytes x y) :=
  fun _ => ⟨⟨rfl, rfl, rfl, rfl⟩, rfl⟩
theorem onlyRegisters_compareAl (m : Byte) : OnlyRegisters (compareAl m) := fun u => onlyRegisters_compareBytes u.al m u
theorem onlyRegisters_countFlags (r : Byte) (v : Bool) :
    OnlyRegisters (withBit fun h u => u.withPs (u.ps.countByte r v h)) := fun _ => ⟨⟨rfl, rfl, rfl, rfl⟩, rfl⟩
theorem onlyRegisters_addToAl (m : Byte) : OnlyRegisters (addToAl m) := fun _ => ⟨⟨rfl, rfl, rfl, rfl⟩, rfl⟩
theorem onlyRegisters_subFromAl (m : Byte) : OnlyRegisters (subFromAl m) := fun _ => ⟨⟨rfl, rfl, rfl, rfl⟩, rfl⟩
theorem onlyRegisters_andAl (m : Byte) : OnlyRegisters (andAl m) := fun _ => ⟨⟨rfl, rfl, rfl, rfl⟩, rfl⟩
theorem onlyRegisters_orAl (m : Byte) : OnlyRegisters (orAl m) := fun _ => ⟨⟨rfl, rfl, rfl, rfl⟩, rfl⟩
theorem onlyRegisters_xorAl (m : Byte) : OnlyRegisters (xorAl m) := fun _ => ⟨⟨rfl, rfl, rfl, rfl⟩, rfl⟩

/-- Outside the registers, the next state `t` of the instruction `i` is the one that its reads and then its writes
leave, at the addresses that `loadAddrs` and `storeAddrs` list; PS[15:8] too, but where the instruction loads PS itself. -/
def PerformsAccesses (i : Instr) (s : State) (o : Host.Outcome State Fault Refusal) : Prop :=
  ∃ t rmw writes, o = .next t ∧ writes.map Prod.fst = storeAddrs i s ∧
    SameOutside (writeAll writes (readAll rmw (loadAddrs i s) s)) t ∧
    (i ≠ .movwPsA → i ≠ .reti → t.ps.high = (writeAll writes (readAll rmw (loadAddrs i s) s)).ps.high)

/-- The summary of an instruction from the lists of its accesses. -/
theorem performs_of_lists {i : Instr} {s t : State} (rmw : Bool) {reads : List Word} (writes : List (Word × Byte))
    (hload : loadAddrs i s = reads) (hstore : storeAddrs i s = writes.map Prod.fst)
    (hsame : SameOutside (writeAll writes (readAll rmw reads s)) t)
    (hhigh : t.ps.high = (writeAll writes (readAll rmw reads s)).ps.high) : PerformsAccesses i s (.next t) := by
  subst hload
  exact ⟨t, rmw, writes, rfl, hstore.symm, hsame, fun _ _ => hhigh⟩

/-- An instruction without an access. -/
theorem performs_registers {i : Instr} {s t : State} (hsame : SameOutside s t) (hhigh : t.ps.high = s.ps.high)
    (hload : loadAddrs i s = []) (hstore : storeAddrs i s = []) : PerformsAccesses i s (.next t) :=
  performs_of_lists false [] hload hstore hsame hhigh

/-- An operation on registers alone after the read of one byte. -/
theorem performs_withByte {i : Instr} {n : Nat} {a : Word} {k : Byte → State → State} {s : State}
    (hk : ∀ v, OnlyRegisters (k v)) (hload : loadAddrs i s = [a]) (hstore : storeAddrs i s = []) :
    PerformsAccesses i s (finish n (withByte a k s)) := by
  obtain ⟨⟨hmem, hproduct, hinputs, hbus⟩, hhigh⟩ := hk (s.byteAt a) (readByte false a s).2
  exact performs_of_lists false [] hload hstore ⟨hmem, hproduct, hinputs, hbus⟩ hhigh

/-- An operation on registers alone after the read of one word. -/
theorem performs_withWord {i : Instr} {n : Nat} {a : Word} {k : Word → State → State} {s : State}
    (hk : ∀ v, OnlyRegisters (k v)) (hload : loadAddrs i s = [a, a + 1]) (hstore : storeAddrs i s = []) :
    PerformsAccesses i s (finish n (withWord a k s)) := by
  obtain ⟨⟨hmem, hproduct, hinputs, hbus⟩, hhigh⟩ := hk (s.wordAt a) (readWord a s).2
  exact performs_of_lists false [] hload hstore ⟨hmem, hproduct, hinputs, hbus⟩ hhigh

/-- A pop, with what the instruction does with the word in registers. -/
theorem performs_pop16 {i : Instr} {s t : State} (hsame : SameOutside (pop16 s).2 t)
    (hhigh : t.ps.high = (pop16 s).2.ps.high) (hload : loadAddrs i s = [s.sp, s.sp + 1])
    (hstore : storeAddrs i s = []) : PerformsAccesses i s (.next t) := by
  obtain ⟨hmem, hproduct, hinputs, hbus⟩ := hsame
  exact performs_of_lists false [] hload hstore ⟨hmem, hproduct, hinputs, hbus⟩ hhigh

theorem performs_branchOnBit {i : Instr} (want : Bool) (dir : Byte) (b : Nat) (rel : Byte) {s : State}
    (hload : loadAddrs i s = [dirAddr dir s]) (hstore : storeAddrs i s = []) :
    PerformsAccesses i s (branchOnBit want dir b rel s) :=
  performs_of_lists false [] hload hstore ⟨rfl, rfl, rfl, rfl⟩
    (congrArg Status.high (readByte_ps false (dirAddr dir s) s)).symm

theorem performs_writeByte {i : Instr} {n : Nat} {a : Word} {v : Byte} {s : State} (hload : loadAddrs i s = [])
    (hstore : storeAddrs i s = [a]) : PerformsAccesses i s (finish n (writeByte a v s)) :=
  performs_of_lists false [(a, v)] hload hstore ⟨rfl, rfl, rfl, rfl⟩ rfl

theorem performs_writeWord {i : Instr} {n : Nat} {a w : Word} {s : State} (hload : loadAddrs i s = [])
    (hstore : storeAddrs i s = [a, a + 1]) : PerformsAccesses i s (finish n (writeWord a w s)) :=
  performs_of_lists false [(a, hi w), (a + 1, lo w)] hload hstore ⟨rfl, rfl, rfl, rfl⟩ rfl

/-- Read-modify-write: the write follows the read with the RMW signal (20_memory R77). -/
theorem performs_modifyByte {i : Instr} {n : Nat} {a : Word} {f : Byte → Byte} {s : State} (hload : loadAddrs i s = [a])
    (hstore : storeAddrs i s = [a]) : PerformsAccesses i s (finish n (modifyByte a f s)) :=
  performs_of_lists true [(a, f (readByte true a s).1)] hload hstore ⟨rfl, rfl, rfl, rfl⟩ rfl

theorem performs_countReg {i : Instr} {n : Nat} {a : Word} {f : Byte → Byte} {v : Byte → Bool} {s : State}
    (hload : loadAddrs i s = [a]) (hstore : storeAddrs i s = [a]) :
    PerformsAccesses i s (finish n (countReg a f v s)) := by
  obtain ⟨⟨hmem, hproduct, hinputs, hbus⟩, hhigh⟩ :=
    onlyRegisters_countFlags (f (readByte true a s).1) (v (readByte true a s).1) (modifyByte a f s)
  exact performs_of_lists true [(a, f (readByte true a s).1)] hload hstore ⟨hmem, hproduct, hinputs, hbus⟩ hhigh

theorem push16_eq_writeAll (w : Word) (s : State) :
    push16 w s = (writeAll [(s.sp - 1, lo w), (s.sp - 2, hi w)] s).withSp (s.sp - 2) := rfl

/-- A push, with what the instruction does to PC. -/
theorem performs_push16 {i : Instr} {w x : Word} {s : State} (hload : loadAddrs i s = [])
    (hstore : storeAddrs i s = [s.sp - 1, s.sp - 2]) : PerformsAccesses i s (.next ((push16 w s).withPc x)) :=
  performs_of_lists false [(s.sp - 1, lo w), (s.sp - 2, hi w)] hload hstore ⟨rfl, rfl, rfl, rfl⟩ rfl

/-- RETI reads four bytes and loads PS from the first two (42_branch R300). -/
theorem performs_reti (s : State) : PerformsAccesses .reti s (.next (returnFromInterrupt s)) := by
  obtain ⟨-, -, -, -, hmem, hproduct, hinputs, -, -⟩ := returnFromInterrupt_regs s
  have hstate := readAll_state false (loadAddrs .reti s) s
  refine ⟨_, false, [], rfl, rfl, ?_, fun _ h => absurd rfl h⟩
  rw [writeAll_nil, hstate]
  exact ⟨hmem, hproduct, hinputs, rfl⟩

theorem performs_divuA (s : State) : PerformsAccesses .divuA s (finish 1 (divideT s)) := by
  apply performs_registers _ _ rfl rfl <;> rw [divideT_eq]
  · exact ⟨rfl, rfl, rfl, rfl⟩
  · rfl

theorem performs_daa (s : State) : PerformsAccesses .daa s (finish 1 (decimalAfterAdd s)) := by
  apply performs_registers _ _ rfl rfl <;> rw [decimalAfterAdd_eq]
  · exact ⟨rfl, rfl, rfl, rfl⟩
  · rfl

/-- CALLV reads its vector before it pushes; the read leaves SP (42_branch R297). -/
theorem performs_callv (vct : Nat) (s : State) : PerformsAccesses (.callv vct) s (execCallv vct s) := by
  rw [execCallv, withWord_eq, push16_eq_writeAll, readWord_sp]
  exact performs_of_lists false [(_, _), (_, _)] rfl rfl ⟨rfl, rfl, rfl, rfl⟩ rfl

/-- Every instruction, in every state, makes exactly the accesses that Safety lists, its reads before its writes. -/
theorem exec_performsAccesses (i : Instr) (s : State) : PerformsAccesses i s (exec i s) := by
  cases i with
  -- the two that load PS from elsewhere
  | movwPsA => exact ⟨_, false, [], rfl, rfl, ⟨rfl, rfl, rfl, rfl⟩, fun h => absurd rfl h⟩
  | reti => exact performs_reti s
  -- registers and flags alone
  | movAImm | swap | xchAT | xchwAT | movwAPs | movwSpA | movwIxA | movwEpA | movwAImm | movwSpImm | movwIxImm
  | movwEpImm | movwAPc | movwASp | movwAIx | movwAEp | xchwASp | xchwAIx | xchwAEp | muluA | rolcA | rorcA | cmpA
  | cmpwA | cmpAImm | addcA | addcwA | addcAImm | subcA | subcwA | subcAImm | xorA | xorwA | xorAImm | andA | andwA
  | andAImm | orA | orwA | orAImm | das | incwA | incwSp | incwIx | incwEp | decwA | decwSp | decwIx | decwEp | nop
  | clrc | setc | clri | seti | jmpExt | jmpAtA | xchwAPc | bnc | bc | bp | bn | bnz | bz | bge | blt =>
    exact performs_registers ⟨rfl, rfl, rfl, rfl⟩ rfl rfl rfl
  | divuA => exact performs_divuA s
  | daa => exact performs_daa s
  -- an operand read from memory
  | movADir | movAAtIx | movAAtEp | movAReg | movAExt | movAAtA => exact performs_withByte onlyRegisters_loadA8 rfl rfl
  | movwAAtA | movwAExt | movwADir | movwAAtIx | movwAAtEp => exact performs_withWord onlyRegisters_loadA16 rfl rfl
  | cmpADir | cmpAAtIx | cmpAAtEp | cmpAReg => exact performs_withByte onlyRegisters_compareAl rfl rfl
  | addcADir | addcAAtIx | addcAAtEp | addcAReg => exact performs_withByte onlyRegisters_addToAl rfl rfl
  | subcADir | subcAAtIx | subcAAtEp | subcAReg => exact performs_withByte onlyRegisters_subFromAl rfl rfl
  | xorADir | xorAAtIx | xorAAtEp | xorAReg => exact performs_withByte onlyRegisters_xorAl rfl rfl
  | andADir | andAAtIx | andAAtEp | andAReg => exact performs_withByte onlyRegisters_andAl rfl rfl
  | orADir | orAAtIx | orAAtEp | orAReg => exact performs_withByte onlyRegisters_orAl rfl rfl
  | cmpDirImm _ d8 | cmpAtIxImm _ d8 | cmpAtEpImm d8 | cmpRegImm _ d8 =>
    exact performs_withByte (fun m => onlyRegisters_compareBytes m d8) rfl rfl
  | popwA | popwIx | ret => exact performs_pop16 ⟨rfl, rfl, rfl, rfl⟩ rfl rfl rfl
  | bbc dir b rel => exact performs_branchOnBit false dir b rel rfl rfl
  | bbs dir b rel => exact performs_branchOnBit true dir b rel rfl rfl
  -- stores
  | movDirA | movAtIxA | movAtEpA | movRegA | movExtA | movAtAT | movDirImm | movAtIxImm | movAtEpImm | movRegImm =>
    exact performs_writeByte rfl rfl
  | movwAtAT | movwExtA | movwDirA | movwAtIxA | movwAtEpA => exact performs_writeWord rfl rfl
  | clrb | setb => exact performs_modifyByte rfl rfl
  | incReg | decReg => exact performs_countReg rfl rfl
  | pushwA | pushwIx | callExt => exact performs_push16 rfl rfl
  | callv vct => exact performs_callv vct s

/-- The summary of the next state that an instruction answers. -/
theorem accesses_of_exec {i : Instr} {s t : State} (h : exec i s = .next t) :
    ∃ rmw writes, writes.map Prod.fst = storeAddrs i s ∧
      SameOutside (writeAll writes (readAll rmw (loadAddrs i s) s)) t ∧
      (i ≠ .movwPsA → i ≠ .reti → t.ps.high = (writeAll writes (readAll rmw (loadAddrs i s) s)).ps.high) := by
  obtain ⟨t', rmw, writes, hnext, hsummary⟩ := exec_performsAccesses i s
  cases h.symm.trans hnext
  exact ⟨rmw, writes, hsummary⟩

/-- Every instruction completes (60_exceptions R341). -/
theorem exec_completes (i : Instr) (s : State) : ∃ t, exec i s = .next t := by
  obtain ⟨t, -, -, hnext, -⟩ := exec_performsAccesses i s
  exact ⟨t, hnext⟩

/-! ## The invariant of memory -/

theorem readAll_inv (rmw : Bool) (reads : List Word) (s : State) : (readAll rmw reads s).inv = s.inv := by
  rw [readAll_state, State.withBus_inv]

theorem exec_inv {i : Instr} {s t : State} (h : exec i s = .next t) (hs : s.inv = true) : t.inv = true := by
  obtain ⟨rmw, writes, -, hsame, -⟩ := accesses_of_exec h
  rw [inv_congr hsame.mem hsame.product]
  exact inv_writeAll writes ((readAll_inv ..).trans hs)

/-- Interrupt entry writes memory by its four byte writes alone (60_exceptions R350). -/
theorem enterInterrupt_inv (r : Request) {s : State} (hs : s.inv = true) : (enterInterrupt r s).inv = true :=
  have hread : (readWord (irqVector r.number) s).2.inv = true := (readWord_inv ..).trans hs
  inv_writeByte _ _ (inv_writeByte _ _ (inv_writeByte _ _ (inv_writeByte _ _ hread)))

theorem sampleInterrupt_inv {s : State} (hs : s.inv = true) : (sampleInterrupt s).inv = true := by
  rcases sampleInterrupt_cases s with ⟨hsame, -⟩ | ⟨r, -, -, -, hentry⟩
  · rwa [hsame]
  · rw [hentry]
    exact enterInterrupt_inv r hs

theorem resetSequence_inv (s : State) : (resetSequence s).inv = s.inv := by
  obtain ⟨-, -, -, -, -, -, hmem, hproduct, -, -⟩ := resetSequence_regs s
  exact inv_congr hmem hproduct

theorem fetch_inv (s : State) : (fetch s).2.inv = s.inv := by
  rw [fetch_state, State.withBus_inv]

/-- Everything a step that answers a next state can do: the reset sequence, or the decoded instruction and the sampling
of the boundary that ends it (60_exceptions R367). -/
theorem step_next_cases {s t : State} (h : step s = .next t) :
    (s.boundary.reset = true ∧ t = resetSequence (s.withInputs s.inputs.tail)) ∨
    (s.boundary.reset = false ∧ ∃ i rest u, decode (fetch (s.withInputs s.inputs.tail)).1 = .ok (i, rest) ∧
      exec i (fetch (s.withInputs s.inputs.tail)).2 = .next u ∧ t = sampleInterrupt u) := by
  cases hreset : s.boundary.reset with
  | true =>
    rw [step, if_pos hreset] at h
    exact .inl ⟨rfl, by injection h with h; exact h.symm⟩
  | false =>
    cases hdecode : decode (fetch (s.withInputs s.inputs.tail)).1 with
    | error e => simp [step, hreset, hdecode] at h
    | ok r =>
      obtain ⟨i, rest⟩ := r
      obtain ⟨u, hexec⟩ := exec_completes i (fetch (s.withInputs s.inputs.tail)).2
      rw [step_eq_sampleInterrupt hreset hdecode hexec] at h
      exact .inr ⟨rfl, i, rest, u, rfl, hexec, by injection h with h; exact h.symm⟩

/-- Settles O52: reset writes nothing, and an instruction and interrupt entry write memory by byte writes alone, each of
which keeps the invariant. -/
theorem everyStepKeepsTheInvariant : Obligations.EveryStepKeepsTheInvariant := by
  intro s t hs hstep
  rcases step_next_cases hstep with ⟨-, rfl⟩ | ⟨-, i, rest, u, -, hexec, rfl⟩
  · rw [resetSequence_inv, State.withInputs_inv, hs]
  · have hfetched : (fetch (s.withInputs s.inputs.tail)).2.inv = true := by
      rw [fetch_inv, State.withInputs_inv, hs]
    exact sampleInterrupt_inv (exec_inv hexec hfetched)

/-! ## The frame of memory -/

/-- Settles O17: reads change no byte that the machine answers itself, and writes only the bytes they address. -/
theorem onlyStoredBytesChange : Obligations.OnlyStoredBytesChange := by
  intro i s t b hexec hstore hinside hps
  obtain ⟨rmw, writes, haddrs, hsame, hhigh⟩ := accesses_of_exec hexec
  have hread : (readAll rmw (loadAddrs i s) s).readsInside b = true := by
    rwa [readAll_state, State.withBus_readsInside]
  have hwritten : (writeAll writes (readAll rmw (loadAddrs i s) s)).readsInside b = true := by
    rwa [readsInside_congr (writeAll_product ..)]
  calc t.byteAt b
      = (writeAll writes (readAll rmw (loadAddrs i s) s)).byteAt b :=
        byteAt_inside_congr hwritten hsame.product hsame.mem fun hb =>
          have ⟨hmovw, hreti⟩ := hps hb
          hhigh hmovw hreti
    _ = (readAll rmw (loadAddrs i s) s).byteAt b := byteAt_writeAll_other hread (haddrs ▸ hstore)
    _ = s.byteAt b := by
        rw [readAll_state]
        exact byteAt_inside_congr hinside rfl rfl fun _ => rfl

/-! ## The frame of the environment -/

section

open Sys2Proof.Claims

/-- Nothing goes outside when the machine answers every read and keeps every write. -/
theorem accessesOutside_eq_nil {i : Instr} {s : State} (hload : ∀ a ∈ loadAddrs i s, s.readsInside a = true)
    (hstore : ∀ a ∈ storeAddrs i s, s.storesInside a = true) : accessesOutside i s = [] := by
  simp only [accessesOutside, List.append_eq_nil_iff, List.map_eq_nil_iff, List.filter_eq_nil_iff]
  exact ⟨fun a ha => by simp [hload a ha], fun a ha => by simp [hstore a ha]⟩

/-- What the environment sees of an instruction: its accesses that the machine does not serve, newest first. -/
theorem exec_seen {i : Instr} {s t : State} (h : exec i s = .next t) :
    t.product = s.product ∧ t.inputs = s.inputs ∧
      ∃ seen, t.bus = seen ++ s.bus ∧ seen.map accessOf = (accessesOutside i s).reverse := by
  obtain ⟨rmw, writes, haddrs, hsame, -⟩ := accesses_of_exec h
  have hreads := readAll_state rmw (loadAddrs i s) s
  have hkeeps : ∀ a, (readAll rmw (loadAddrs i s) s).storesInside a = s.storesInside a := by
    intro a
    rw [hreads, State.withBus_storesInside]
  obtain ⟨read, hread, hreadMap⟩ := readAll_seen rmw (loadAddrs i s) s
  obtain ⟨written, hwritten, hwrittenMap⟩ := writeAll_seen writes (readAll rmw (loadAddrs i s) s)
  refine ⟨?_, ?_, written ++ read, ?_, ?_⟩
  · rw [hsame.product, writeAll_product, hreads, State.withBus_product]
  · rw [hsame.inputs, writeAll_inputs, hreads, State.withBus_inputs]
  · rw [hsame.bus, hwritten, hread, List.append_assoc]
  · simp only [List.map_append, hreadMap, hwrittenMap, haddrs, hkeeps, accessesOutside, List.reverse_append]

/-- Settles O18: the bus records the unserved reads and then the unserved writes, and nothing where there are none. -/
theorem environmentSeesOnlyItsOwnAccesses : Obligations.EnvironmentSeesOnlyItsOwnAccesses := by
  intro i s t hexec
  obtain ⟨hproduct, hinputs, seen, hbus, hseen⟩ := exec_seen hexec
  refine ⟨hproduct, hinputs, ⟨seen, hbus, hseen⟩, fun hload hstore => ?_⟩
  rw [accessesOutside_eq_nil hload hstore, List.reverse_nil, List.map_eq_nil_iff] at hseen
  rw [hbus, hseen, List.nil_append]

end

end Sys2Proof.Machine

/-! The comparisons: the flags of a difference said by the order of its operands, and the eleven instructions that set
them (41_arithmetic R202, R221 to R231). -/

namespace Sys2Proof.Machine

open Sys2Proof.Claims

/-! ## The difference of two words of any width -/

theorem ofInt_toNat_eq {w : Nat} (x : BitVec w) : BitVec.ofInt w x.toNat = x := by
  rw [BitVec.ofInt_natCast, BitVec.ofNat_toNat, BitVec.setWidth_eq]

/-- The difference as a number, reduced to the width, is the difference of the words. -/
theorem ofInt_toNat_sub_toNat {w : Nat} (x y : BitVec w) : BitVec.ofInt w ((x.toNat : Int) - y.toNat) = x - y := by
  rw [BitVec.eq_sub_iff_add_eq]
  calc BitVec.ofInt w ((x.toNat : Int) - y.toNat) + y
      = BitVec.ofInt w ((x.toNat : Int) - y.toNat) + BitVec.ofInt w y.toNat := by rw [ofInt_toNat_eq]
    _ = BitVec.ofInt w x.toNat := by rw [← BitVec.ofInt_add, Int.sub_add_cancel]
    _ = x := ofInt_toNat_eq x

/-- The sign of a difference, turned over where the difference overflows, is the signed order of the operands. -/
theorem ssubOverflow_xor_msb_sub {w : Nat} (x y : BitVec w) :
    (BitVec.ssubOverflow x y ^^ (x - y).msb) = decide (x.toInt < y.toInt) := by
  rw [BitVec.msb_eq_toInt]
  by_cases hover : BitVec.ssubOverflow x y = true
  · rw [hover, Bool.true_xor, ← decide_not, decide_eq_decide, BitVec.toInt_sub]
    simp only [BitVec.ssubOverflow, ge_iff_le, Bool.or_eq_true, decide_eq_true_eq,
      BitVec.twoPow_le_toInt_sub_toInt_iff, BitVec.toInt_sub_toInt_lt_twoPow_iff] at hover
    omega
  · rw [BitVec.toInt_sub_of_not_ssubOverflow hover, Bool.eq_false_of_not_eq_true hover, Bool.false_xor,
      decide_eq_decide]
    omega

/-! ## The flags of a difference without a borrow in -/

theorem sub8_r (x y : Byte) : (sub8 x y false).r = x - y := by
  rw [← ofInt_toNat_sub_toNat]
  exact congrArg (BitVec.ofInt 8) (Int.sub_zero _)

theorem sub16_r (x y : Word) : (sub16 x y false).r = x - y := by
  rw [← ofInt_toNat_sub_toNat]
  exact congrArg (BitVec.ofInt 16) (Int.sub_zero _)

theorem sub8_c (x y : Byte) : (sub8 x y false).c = decide (x.toNat < y.toNat) := by
  rw [sub8, decide_eq_decide, Bool.toNat_false]
  omega

theorem sub16_c (x y : Word) : (sub16 x y false).c = decide (x.toNat < y.toNat) := by
  rw [sub16, decide_eq_decide, Bool.toNat_false]
  omega

theorem sub8_v (x y : Byte) : (sub8 x y false).v = BitVec.ssubOverflow x y := by
  simp only [sub8, BitVec.ssubOverflow, Bool.toNat_false]
  rw [Bool.or_comm]
  congr 1 <;> rw [decide_eq_decide] <;> omega

theorem sub16_v (x y : Word) : (sub16 x y false).v = BitVec.ssubOverflow x y := by
  simp only [sub16, BitVec.ssubOverflow, Bool.toNat_false]
  rw [Bool.or_comm]
  congr 1 <;> rw [decide_eq_decide] <;> omega

theorem sub_beq_zero {w : Nat} (x y : BitVec w) : (x - y == 0#w) = decide (x = y) := by
  rw [Bool.beq_eq_decide_eq, decide_eq_decide, BitVec.sub_eq_iff_eq_add, BitVec.zero_add]

/-! ## The comparisons -/

/-- A comparison of two bytes made in a state that differs from `s` by what the environment has seen. -/
theorem comparesBytes_of_exec {i : Instr} {n : Nat} {x y : Byte} {s u : State} (hu : u = s.withBus u.bus)
    (hexec : exec i s = finish n (compareBytes x y u)) : ComparesBytes i n x y u.bus s := by
  have hc : ((compareBytes x y u).advance n).ps.c = (sub8 x y false).c := rfl
  have hz : ((compareBytes x y u).advance n).ps.z = ((sub8 x y false).r == 0#8) := rfl
  have hv : ((compareBytes x y u).advance n).ps.v = (sub8 x y false).v := rfl
  have hn : ((compareBytes x y u).advance n).ps.n = (sub8 x y false).r.msb := rfl
  have hpc : ((compareBytes x y u).advance n).pc = s.nextPC n := by rw [hu]; rfl
  have hkeeps : StoresNothing s ((compareBytes x y u).advance n) := by
    rw [hu]
    exact ⟨rfl, rfl, rfl, rfl, rfl, rfl, rfl⟩
  refine ⟨_, hexec, advances_of_pc hpc, hkeeps, rfl, ?_, ?_, ?_, ?_⟩
  · rw [hz, sub8_r, sub_beq_zero]
  · rw [hc, sub8_c]
  · rw [hv, hn, sub8_v, sub8_r, ssubOverflow_xor_msb_sub]
  · rw [hn, sub8_r, BitVec.msb_eq_decide, BitVec.toNat_sub, decide_eq_decide]
    omega

/-- CMP <ea>,#d8: the byte read is the minuend. -/
theorem comparesBytes_memory_imm {i : Instr} {n : Nat} {a : Word} {d8 : Byte} {s : State}
    (hexec : exec i s = finish n (withByte a (fun m => compareBytes m d8) s)) :
    ComparesBytes i n (s.byteAt a) d8 (seenAfterRead s a) s :=
  comparesBytes_of_exec (readByte_state false a s) hexec

/-- CMP A,<ea>: AL, which the read leaves, is the minuend. -/
theorem comparesBytes_al_memory {i : Instr} {n : Nat} {a : Word} {s : State}
    (hexec : exec i s = finish n (withByte a compareAl s)) :
    ComparesBytes i n s.al (s.byteAt a) (seenAfterRead s a) s := by
  rw [withByte_eq, compareAl, readByte_al] at hexec
  exact comparesBytes_of_exec (readByte_state false a s) hexec

/-- CMPW A: T is the minuend (41_arithmetic R222). -/
theorem exec_cmpwA_flags (s : State) :
    ∃ t, exec .cmpwA s = .next t ∧ Advances 1 s t ∧ StoresNothing s t ∧ t.bus = s.bus ∧ t.ps.z = decide (s.t = s.a) ∧
      t.ps.c = decide (s.t.toNat < s.a.toNat) ∧ (t.ps.v ^^ t.ps.n) = decide (s.t.toInt < s.a.toInt) ∧
      t.ps.n = decide (32768 ≤ (s.t.toNat + 65536 - s.a.toNat) % 65536) := by
  have hc : ((compareWords s.t s.a s).advance 1).ps.c = (sub16 s.t s.a false).c := rfl
  have hz : ((compareWords s.t s.a s).advance 1).ps.z = ((sub16 s.t s.a false).r == 0#16) := rfl
  have hv : ((compareWords s.t s.a s).advance 1).ps.v = (sub16 s.t s.a false).v := rfl
  have hn : ((compareWords s.t s.a s).advance 1).ps.n = (sub16 s.t s.a false).r.msb := rfl
  refine ⟨_, rfl, advances_of_pc rfl, ⟨rfl, rfl, rfl, rfl, rfl, rfl, rfl⟩, rfl, ?_, ?_, ?_, ?_⟩
  · rw [hz, sub16_r, sub_beq_zero]
  · rw [hc, sub16_c]
  · rw [hv, hn, sub16_v, sub16_r, ssubOverflow_xor_msb_sub]
  · rw [hn, sub16_r, BitVec.msb_eq_decide, BitVec.toNat_sub, decide_eq_decide]
    omega

/-- Settles O28: each form is a comparison of AL, TL or T, or of the byte read, and the flags follow from its
difference. -/
theorem comparisons : Obligations.Comparisons := fun _ =>
  ⟨comparesBytes_of_exec rfl rfl, fun _ => comparesBytes_al_memory rfl, fun _ => comparesBytes_of_exec rfl rfl,
    fun _ => comparesBytes_al_memory rfl, fun _ => comparesBytes_al_memory rfl, comparesBytes_al_memory rfl,
    fun _ _ => comparesBytes_memory_imm rfl, fun _ _ => comparesBytes_memory_imm rfl,
    fun _ => comparesBytes_memory_imm rfl, fun _ _ => comparesBytes_memory_imm rfl, exec_cmpwA_flags _⟩

end Sys2Proof.Machine

/-! The decoder on encoded bytes, the fetch of bytes that the machine answers itself, and the step that runs them
(20_memory R85, 30_encoding R116, 60_exceptions R367). -/

namespace Sys2Proof

/-! ## Decoding what was encoded -/

theorem decode_cons {op : Byte} {r : OpcodeRow} (h : lookupOpcode op = some r) (rest : List Byte) :
    decode (op :: rest) = r.layout.build op rest := by
  simp only [decode, h]

/-- The 8 first bytes of a block of the table have its row and carry their number in the 3-bit field (30_encoding
R103). -/
def BlockRow (op : Byte) (l : Layout) : Prop :=
  (List.range 8).map (fun j => (lookupOpcode (withField op j), opcodeField (withField op j))) =
    (List.range 8).map (fun j => (some (block op l), j))

theorem BlockRow.decode_eq_build {op : Byte} {l : Layout} (h : BlockRow op l) {i : Nat} (hi : decide (i < 8) = true)
    (rest : List Byte) :
    decode (withField op i :: rest) = l.build (withField op i) rest ∧ opcodeField (withField op i) = i := by
  obtain ⟨hrow, hfield⟩ := Prod.ext_iff.1 (List.map_inj_left.1 h i (List.mem_range.2 (of_decide_eq_true hi)))
  exact ⟨decode_cons hrow rest, hfield⟩

theorem decode_field {op : Byte} {f : Nat → Instr} (h : BlockRow op (.field f)) {i : Nat} (hi : decide (i < 8) = true)
    (rest : List Byte) : decode (withField op i :: rest) = .ok (f i, rest) := by
  obtain ⟨hdecode, hfield⟩ := h.decode_eq_build hi rest
  rw [hdecode, Layout.build, hfield]

theorem decode_fieldByte {op : Byte} {f : Nat → Byte → Instr} (h : BlockRow op (.fieldByte f)) {i : Nat}
    (hi : decide (i < 8) = true) (b : Byte) (rest : List Byte) :
    decode (withField op i :: b :: rest) = .ok (f i b, rest) := by
  obtain ⟨hdecode, hfield⟩ := h.decode_eq_build hi (b :: rest)
  rw [hdecode, Layout.build, hfield]

theorem decode_fieldBytes {op : Byte} {f : Nat → Byte → Byte → Instr} (h : BlockRow op (.fieldBytes f)) {i : Nat}
    (hi : decide (i < 8) = true) (b b' : Byte) (rest : List Byte) :
    decode (withField op i :: b :: b' :: rest) = .ok (f i b b', rest) := by
  obtain ⟨hdecode, hfield⟩ := h.decode_eq_build hi (b :: b' :: rest)
  rw [hdecode, Layout.build, hfield]

/-- A 16-bit operand is decoded from its halves, the upper one first (20_memory R65). -/
theorem decode_word {op : Byte} {f : Word → Instr} (h : lookupOpcode op = some (single op (.word f))) (w : Word)
    (rest : List Byte) : decode (op :: hi w :: lo w :: rest) = .ok (f w, rest) := by
  rw [decode_cons h, single, Layout.build, join_hi_lo]

/-- Decoding the encoding of a well-formed instruction gives it back, whatever bytes follow (30_encoding R100, R102). -/
theorem decode_encode_append (i : Instr) (rest : List Byte) (h : i.wellFormed = true) :
    decode (encode i ++ rest) = .ok (i, rest) := by
  cases i with
  -- a 3-bit field in the opcode byte
  | movAReg | movRegA | cmpAReg | addcAReg | subcAReg | xorAReg | andAReg | orAReg | incReg | decReg | callv =>
    exact decode_field (by rfl) h rest
  | movRegImm _ d8 | cmpRegImm _ d8 => exact decode_fieldByte (by rfl) h d8 rest
  | clrb dir => exact decode_fieldByte (f := fun b d => .clrb d b) (by rfl) h dir rest
  | setb dir => exact decode_fieldByte (f := fun b d => .setb d b) (by rfl) h dir rest
  | bbc dir _ rel => exact decode_fieldBytes (f := fun b d r => .bbc d b r) (by rfl) h dir rel rest
  | bbs dir _ rel => exact decode_fieldBytes (f := fun b d r => .bbs d b r) (by rfl) h dir rel rest
  -- a 16-bit operand
  | movAExt w | movExtA w | movwAExt w | movwExtA w | movwAImm w | movwSpImm w | movwIxImm w | movwEpImm w | jmpExt w
  | callExt w => exact decode_word rfl w rest
  -- one or two operand bytes
  | movAImm | movADir | movAAtIx | movDirA | movAtIxA | movAtEpImm | movwADir | movwAAtIx | movwDirA | movwAtIxA
  | cmpAImm | cmpADir | cmpAAtIx | addcAImm | addcADir | addcAAtIx | subcAImm | subcADir | subcAAtIx | xorAImm
  | xorADir | xorAAtIx | andAImm | andADir | andAAtIx | orAImm | orADir | orAAtIx | cmpAtEpImm | bnc | bc | bp | bn
  | bnz | bz | bge | blt | movDirImm | movAtIxImm | cmpDirImm | cmpAtIxImm => rfl
  -- the opcode byte alone
  | movAAtEp | swap | xchAT | xchwAT | movAtEpA | movwAPs | movwPsA | movAtAT | movwAtAT | movAAtA | movwAAtA
  | movwAAtEp | movwAtEpA | movwSpA | movwIxA | movwEpA | movwAPc | movwASp | movwAIx | movwAEp | xchwASp | xchwAIx
  | xchwAEp | muluA | rolcA | rorcA | divuA | cmpA | cmpwA | cmpAAtEp | addcA | addcwA | addcAAtEp | subcA | subcwA
  | subcAAtEp | xorA | xorwA | xorAAtEp | andA | andwA | andAAtEp | orA | orwA | orAAtEp | daa | das | incwA | incwSp
  | incwIx | incwEp | decwA | decwSp | decwIx | decwEp | ret | reti | jmpAtA | xchwAPc | nop | pushwA | pushwIx | popwA
  | popwIx | clri | clrc | seti | setc => rfl

/-- A layout takes from the operand bytes what its length says (30_encoding R102). -/
theorem Layout.build_length {op : Byte} {l : Layout} {rest more : List Byte} {i : Instr}
    (h : l.build op rest = .ok (i, more)) : l.length + more.length = rest.length + 1 := by
  cases l with
  | inh | field => cases h; exact Nat.add_comm 1 _
  | byte | fieldByte =>
    cases rest with
    | nil => cases h
    | cons b rest => cases h; simp only [Layout.length, List.length_cons]; omega
  | word | bytes | fieldBytes =>
    match rest, h with
    | [], h => cases h
    | [_], h => cases h
    | _ :: _ :: rest, h => cases h; simp only [Layout.length, List.length_cons]; omega

/-- The decoder takes as many bytes as the first byte says (30_encoding R116). -/
theorem opcodeLength_of_decode {op : Byte} {rest more : List Byte} {i : Instr}
    (h : decode (op :: rest) = .ok (i, more)) : opcodeLength op + more.length = (op :: rest).length := by
  cases hrow : lookupOpcode op with
  | none => simp [decode, hrow] at h
  | some r =>
    rw [decode_cons hrow] at h
    rw [opcodeLength, hrow]
    exact Layout.build_length h

/-- The encoding of a well-formed instruction is its first byte and as many more as that byte says. -/
theorem encode_eq_cons {i : Instr} (h : i.wellFormed = true) :
    ∃ op rest, encode i = op :: rest ∧ opcodeLength op - 1 = rest.length := by
  have hdecode := decode_encode_append i [] h
  rw [List.append_nil] at hdecode
  cases hbytes : encode i with
  | nil => rw [hbytes] at hdecode; cases hdecode
  | cons op rest =>
    rw [hbytes] at hdecode
    have hlength := opcodeLength_of_decode hdecode
    rw [List.length_nil, List.length_cons] at hlength
    exact ⟨op, rest, rfl, by omega⟩

end Sys2Proof

namespace Sys2Proof.Machine

/-! ## Fetching bytes that the machine answers itself -/

/-- The bytes `bytes` stand from the address `a` on, where the machine answers reads itself. -/
def StandAt (bytes : List Byte) (a : Word) (s : State) : Prop :=
  ∀ k, k < bytes.length →
    s.readsInside (a + BitVec.ofNat 16 k) = true ∧ bytes[k]? = some (s.byteAt (a + BitVec.ofNat 16 k))

theorem standAt_cons {b : Byte} {bytes : List Byte} {a : Word} {s : State} (h : StandAt (b :: bytes) a s) :
    s.readsInside a = true ∧ s.byteAt a = b ∧ StandAt bytes (a + 1) s := by
  obtain ⟨hinside, hbyte⟩ := h 0 (Nat.zero_lt_succ _)
  rw [BitVec.add_zero] at hinside hbyte
  refine ⟨hinside, (Option.some.inj hbyte).symm, fun k hk => ?_⟩
  have haddr : a + 1 + BitVec.ofNat 16 k = a + BitVec.ofNat 16 (k + 1) := by
    rw [Nat.add_comm, BitVec.ofNat_add, BitVec.add_assoc]
    rfl
  rw [haddr, ← List.getElem?_cons_succ (a := b)]
  exact h (k + 1) (Nat.succ_lt_succ hk)

/-- Reading as many bytes as stand there gives them, and changes nothing. -/
theorem fetchBytes_of_standAt {bytes : List Byte} {a : Word} {s : State} (h : StandAt bytes a s) :
    fetchBytes bytes.length a s = (bytes, s) := by
  induction bytes generalizing a with
  | nil => rfl
  | cons b bytes ih =>
    obtain ⟨hinside, rfl, htail⟩ := standAt_cons h
    rw [List.length_cons, fetchBytes, readByte_inside false hinside, ih htail]

/-- The fetch of an instruction that stands at PC gives its bytes, and changes nothing. -/
theorem fetch_of_standAt {i : Instr} {s : State} (hwf : i.wellFormed = true) (h : StandAt (encode i) s.pc s) :
    fetch s = (encode i, s) := by
  obtain ⟨op, rest, hbytes, hlength⟩ := encode_eq_cons hwf
  rw [hbytes] at h ⊢
  obtain ⟨hinside, rfl, htail⟩ := standAt_cons h
  rw [fetch, readByte_inside false hinside, hlength, fetchBytes_of_standAt htail]

/-- Settles O49: the fetch gives the instruction's bytes, the decoder gives the instruction back, and the step executes
it. -/
theorem stepRunsTheBytesAtPc : Obligations.StepRunsTheBytesAtPc := by
  intro s i hreset hwf hstand
  have hinputs : StandAt (encode i) s.pc (s.withInputs s.inputs.tail) := fun k hk => by
    rw [State.withInputs_byteAt]
    exact hstand k hk
  have hfetch : fetch (s.withInputs s.inputs.tail) = (encode i, s.withInputs s.inputs.tail) :=
    fetch_of_standAt hwf hinputs
  have hdecode : decode (encode i) = .ok (i, []) := by
    rw [← decode_encode_append i [] hwf, List.append_nil]
  obtain ⟨t, hexec⟩ := exec_completes i (s.withInputs s.inputs.tail)
  exact ⟨t, hexec, step_eq_sampleInterrupt hreset (by rw [hfetch, hdecode]) (by rw [hfetch, hexec])⟩

end Sys2Proof.Machine

/-! The decoder as the inverse of the encoder: the bytes each row of the opcode table takes, the first byte that has no
row, and the length by the first byte (30_encoding R100 to R123). -/

namespace Sys2Proof

/-! ## What each row of the table encodes -/

/-- The instructions of the layout are well formed, and their bytes are the opcode byte `op` and the operand bytes they
are built from, where `n` is the 3-bit field (30_encoding R102). -/
def Layout.Encodes (op : Byte) (n : Nat) : Layout → Prop
  | .inh i => i.wellFormed = true ∧ encode i = [op]
  | .field f => (f n).wellFormed = true ∧ encode (f n) = [op]
  | .byte f => ∀ b, (f b).wellFormed = true ∧ encode (f b) = [op, b]
  | .fieldByte f => ∀ b, (f n b).wellFormed = true ∧ encode (f n b) = [op, b]
  | .word f => ∀ w, (f w).wellFormed = true ∧ encode (f w) = [op, hi w, lo w]
  | .bytes f => ∀ b b', (f b b').wellFormed = true ∧ encode (f b b') = [op, b, b']
  | .fieldBytes f => ∀ b b', (f n b b').wellFormed = true ∧ encode (f n b b') = [op, b, b']

/-- What a layout that encodes builds is well formed, and its encoding is the bytes taken. -/
theorem Layout.Encodes.of_build {op : Byte} {l : Layout} {rest more : List Byte} {i : Instr}
    (h : l.Encodes op (opcodeField op)) (hbuild : l.build op rest = .ok (i, more)) :
    i.wellFormed = true ∧ op :: rest = encode i ++ more := by
  cases l with
  | inh | field =>
    obtain ⟨hwf, hbytes⟩ := h
    cases hbuild
    exact ⟨hwf, by rw [hbytes]; rfl⟩
  | byte | fieldByte =>
    cases rest with
    | nil => cases hbuild
    | cons b rest =>
      obtain ⟨hwf, hbytes⟩ := h b
      cases hbuild
      exact ⟨hwf, by rw [hbytes]; rfl⟩
  | word =>
    match rest, hbuild with
    | [], hbuild => cases hbuild
    | [_], hbuild => cases hbuild
    | b :: b' :: rest, hbuild =>
      obtain ⟨hwf, hbytes⟩ := h (join b b')
      rw [hi_join, lo_join] at hbytes
      cases hbuild
      exact ⟨hwf, by rw [hbytes]; rfl⟩
  | bytes | fieldBytes =>
    match rest, hbuild with
    | [], hbuild => cases hbuild
    | [_], hbuild => cases hbuild
    | b :: b' :: rest, hbuild =>
      obtain ⟨hwf, hbytes⟩ := h b b'
      cases hbuild
      exact ⟨hwf, by rw [hbytes]; rfl⟩

/-- The layout of the row encodes for every first byte that the row matches. -/
def OpcodeRow.Encodes (r : OpcodeRow) : Prop :=
  ∀ op, r.accepts op = true → r.layout.Encodes op (opcodeField op)

theorem accepts_single (op op' : Byte) (l : Layout) : (single op l).accepts op' = true ↔ op' = op := by
  rw [OpcodeRow.accepts, single, beq_iff_eq, show (0xFF#8 : Byte) = BitVec.allOnes 8 from rfl, BitVec.and_allOnes]

theorem encodes_single (op : Byte) (l : Layout) : (single op l).Encodes ↔ l.Encodes op (opcodeField op) :=
  ⟨fun h => h op ((accepts_single op op l).2 rfl), fun h op' hop' => (accepts_single op op' l).1 hop' ▸ h⟩

theorem opcodeField_lt (op : Byte) : opcodeField op < 8 := by
  revert op
  decide

/-- A byte is its upper five bits with its 3-bit field. -/
theorem withField_opcodeField (op : Byte) : withField (op &&& 0xF8#8) (opcodeField op) = op := by
  revert op
  decide

/-- A first byte of an aligned block splits into the upper five bits, which the block fixes, and the field. -/
theorem split_withField {op : Byte} (hop : opcodeField op = 0) {n : Nat} (hn : n < 8) :
    withField op n &&& 0xF8#8 = op ∧ opcodeField (withField op n) = n := by
  revert op n
  decide

/-- An aligned block encodes as each of its 8 first bytes does (30_encoding R103). -/
theorem encodes_block {op : Byte} (hop : opcodeField op = 0) (l : Layout) :
    (block op l).Encodes ↔ ∀ n, n < 8 → l.Encodes (withField op n) n := by
  constructor
  · intro h n hn
    obtain ⟨hupper, hfield⟩ := split_withField hop hn
    have hencodes := h (withField op n) (beq_iff_eq.2 hupper)
    rwa [hfield] at hencodes
  · intro h op' haccepts
    obtain rfl : op' &&& 0xF8#8 = op := beq_iff_eq.1 haccepts
    have hencodes := h (opcodeField op') (opcodeField_lt op')
    rwa [withField_opcodeField] at hencodes

/-- Every row of the opcode table encodes: row by row, its pattern and operands are the Encoding entry of the
instruction it builds (30_encoding R120). -/
theorem opcodeTable_encodes : ∀ r ∈ opcodeTable, r.Encodes := by
  simp (disch := decide) only [opcodeTable, opcodeRows0, opcodeRows1, opcodeRows2, opcodeRows3, opcodeRows4,
    opcodeRows5, opcodeRows6, opcodeRows7, opcodeRows8, opcodeRows9, opcodeRowsA, opcodeRowsB, opcodeRowsC,
    opcodeRowsD, opcodeRowsE, opcodeRowsF, List.forall_mem_append, List.forall_mem_cons, encodes_single,
    encodes_block, Layout.Encodes, encode, Instr.wellFormed, registerNumberOk, bitNumberOk, vectorNumberOk,
    decide_eq_true_eq, forall_const, imp_self, implies_true, and_true, List.not_mem_nil, false_imp_iff]

/-- The row of a first byte encodes for it. -/
theorem lookupOpcode_encodes {op : Byte} {r : OpcodeRow} (h : lookupOpcode op = some r) :
    r.layout.Encodes op (opcodeField op) := by
  rw [lookupOpcode] at h
  have haccepts := List.find?_some h
  exact opcodeTable_encodes r (List.mem_of_find?_eq_some h) op haccepts

/-- Where the decoder answers an instruction, the row of the first byte has built it. -/
theorem row_of_decode {op : Byte} {rest more : List Byte} {i : Instr} (h : decode (op :: rest) = .ok (i, more)) :
    ∃ r, lookupOpcode op = some r ∧ r.layout.build op rest = .ok (i, more) := by
  cases hrow : lookupOpcode op with
  | none => simp [decode, hrow] at h
  | some r =>
    rw [decode_cons hrow] at h
    exact ⟨r, rfl, h⟩

/-- Settles O1: what `decode_encode_append` says of each instruction. -/
theorem decodeInvertsEncode : Obligations.DecodeInvertsEncode := decode_encode_append

/-- Settles O2: the row that the decoder reads encodes what it builds. -/
theorem decodedBytesAreTheEncoding : Obligations.DecodedBytesAreTheEncoding := by
  intro bytes i rest hdecode
  cases bytes with
  | nil => cases hdecode
  | cons op operands =>
    obtain ⟨r, hrow, hbuild⟩ := row_of_decode hdecode
    exact (lookupOpcode_encodes hrow).of_build hbuild

/-! ## The first byte: whether it has a row, and the length of its instruction -/

theorem lookupOpcode_isSome (op : Byte) : (lookupOpcode op).isSome = decide (op ≠ 0x44#8) := by
  revert op
  decide

/-- A layout builds its instruction from as many bytes as its length says (30_encoding R102). -/
theorem Layout.build_of_length_le {op : Byte} {l : Layout} {rest : List Byte} (h : l.length ≤ rest.length + 1) :
    ∃ i more, l.build op rest = .ok (i, more) := by
  cases l with
  | inh | field => exact ⟨_, _, rfl⟩
  | byte | fieldByte =>
    match rest, h with
    | _ :: _, _ => exact ⟨_, _, rfl⟩
  | word | bytes | fieldBytes =>
    match rest, h with
    | _ :: _ :: _, _ => exact ⟨_, _, rfl⟩

theorem Layout.length_le (l : Layout) : l.length ≤ 3 := by
  cases l <;> simp [Layout.length]

/-- With as many bytes as its length says, every first byte but 44H begins an instruction (30_encoding R116, R122). -/
theorem decode_of_length_le {op : Byte} {rest : List Byte} (hop : op ≠ 0x44#8)
    (h : opcodeLength op ≤ rest.length + 1) : ∃ i more, decode (op :: rest) = .ok (i, more) := by
  have hsome : (lookupOpcode op).isSome = true := by rw [lookupOpcode_isSome, decide_eq_true hop]
  obtain ⟨r, hrow⟩ := Option.isSome_iff_exists.1 hsome
  rw [opcodeLength, hrow] at h
  rw [decode_cons hrow]
  exact Layout.build_of_length_le h

theorem opcodeLength_le (op : Byte) : opcodeLength op ≤ 3 := by
  rw [opcodeLength]
  split
  · exact Layout.length_le _
  · decide

/-- 44H has no row, whatever follows it (30_encoding R122). -/
theorem decode_0x44 (rest : List Byte) : decode (0x44#8 :: rest) = .error (.undefinedOpcode 0x44#8) := rfl

/-- Settles O3: 44H has no row, and three bytes are enough for every other first byte. -/
theorem onlyOneFirstByteUnassigned : Obligations.OnlyOneFirstByteUnassigned := by
  intro op b1 b2 rest
  constructor
  · rintro ⟨i, more, hdecode⟩ rfl
    rw [decode_0x44] at hdecode
    cases hdecode
  · intro hop
    apply decode_of_length_le hop
    have := opcodeLength_le op
    simp only [List.length_cons]
    omega

/-- Settles O4: the table by evaluation at each first byte, and what each layout takes from the operand bytes. -/
theorem lengthByFirstByte : Obligations.LengthByFirstByte :=
  ⟨by decide, fun _ _ _ _ => opcodeLength_of_decode⟩

end Sys2Proof

namespace Sys2Proof.Machine

/-! ## The stop of the machine -/

theorem fetch_eq_cons (s : State) :
    ∃ rest, (fetch s).1 = s.byteAt s.pc :: rest ∧ rest.length = opcodeLength (s.byteAt s.pc) - 1 :=
  ⟨_, rfl, fetchBytes_length _ _ _⟩

/-- At every first byte but 44H the fetch brings a whole instruction. -/
theorem decode_fetch {s : State} (h : s.byteAt s.pc ≠ 0x44#8) : ∃ i more, decode (fetch s).1 = .ok (i, more) := by
  obtain ⟨rest, hbytes, hlength⟩ := fetch_eq_cons s
  rw [hbytes]
  exact decode_of_length_le h (by omega)

theorem step_of_reset {s : State} (h : s.boundary.reset = true) :
    step s = .next (resetSequence (s.withInputs s.inputs.tail)) := by
  rw [step, if_pos h]

/-- A step that fetches 44H stops with the byte it found (30_encoding R122). -/
theorem step_at_0x44 {s : State} (hreset : s.boundary.reset = false) (hbyte : s.byteAt s.pc = 0x44#8) :
    step s = .refused (.undefinedOpcode 0x44#8) := by
  obtain ⟨rest, hbytes, -⟩ := fetch_eq_cons (s.withInputs s.inputs.tail)
  rw [State.withInputs_byteAt, State.withInputs_pc, hbyte] at hbytes
  simp only [step, hreset, Bool.false_eq_true, if_false, hbytes, decode_0x44, hbyte]

/-- Settles O50: at 44H the decoder has no row; at every other first byte the fetch brings a whole instruction, and
every instruction completes. -/
theorem stepStopsOnlyAtTheUnassignedByte : Obligations.StepStopsOnlyAtTheUnassignedByte := by
  intro s
  refine ⟨fun ⟨hreset, hbyte⟩ => step_at_0x44 hreset hbyte, fun h => ?_⟩
  cases hreset : s.boundary.reset with
  | true => exact ⟨_, step_of_reset hreset⟩
  | false =>
    have hbyte : s.byteAt s.pc ≠ 0x44#8 := h.resolve_left (by simp [hreset])
    have hbyte' : (s.withInputs s.inputs.tail).byteAt (s.withInputs s.inputs.tail).pc ≠ 0x44#8 := by
      rwa [State.withInputs_byteAt, State.withInputs_pc]
    obtain ⟨i, more, hdecode⟩ := decode_fetch hbyte'
    obtain ⟨t, hexec⟩ := exec_completes i (fetch (s.withInputs s.inputs.tail)).2
    exact ⟨_, step_eq_sampleInterrupt hreset hdecode hexec⟩

end Sys2Proof.Machine

/-! The loads into A: the automatic transfer to T, N and Z from the data, and the address of `@IX+off` (40_transfer R141,
R142, 30_encoding R107). -/

namespace Sys2Proof.Machine

open Sys2Proof.Claims

/-! ## N and Z of a result -/

theorem nzByte_spec (r : Byte) (p : Status) : NZByte r (p.nzByte r) := by
  refine ⟨BitVec.msb_eq_decide r, ?_⟩
  rw [Status.nzByte, Bool.beq_eq_decide_eq, decide_eq_decide, ← BitVec.toNat_inj]
  rfl

theorem nzWord_spec (r : Word) (p : Status) : NZWord r (p.nzWord r) := by
  refine ⟨BitVec.msb_eq_decide r, ?_⟩
  rw [Status.nzWord, Bool.beq_eq_decide_eq, decide_eq_decide, ← BitVec.toNat_inj]
  rfl

/-! ## The two loads -/

/-- `LoadA8(v)` made in a state that differs from `s` by what the environment has seen. -/
theorem loadsByte_of_exec {i : Instr} {n : Nat} {v : Byte} {s u : State} (hu : u = s.withBus u.bus)
    (hexec : exec i s = finish n (loadA8 v u)) : LoadsByte i n v s := by
  rw [hu] at hexec
  exact ⟨_, hexec, advances_of_pc rfl, lo_join _ v, hi_join _ v, lo_join _ s.al, hi_join s.th _, nzByte_spec v s.ps,
    rfl, rfl, rfl, rfl, rfl⟩

theorem loadsWord_of_exec {i : Instr} {n : Nat} {v : Word} {s u : State} (hu : u = s.withBus u.bus)
    (hexec : exec i s = finish n (loadA16 v u)) : LoadsWord i n v s := by
  rw [hu] at hexec
  exact ⟨_, hexec, advances_of_pc rfl, rfl, rfl, nzWord_spec v s.ps, rfl, rfl, rfl, rfl, rfl⟩

theorem loadsByte_memory {i : Instr} {n : Nat} {a : Word} {s : State}
    (hexec : exec i s = finish n (withByte a loadA8 s)) : LoadsByte i n (s.byteAt a) s :=
  loadsByte_of_exec (readByte_state false a s) hexec

theorem loadsWord_memory {i : Instr} {n : Nat} {a : Word} {s : State}
    (hexec : exec i s = finish n (withWord a loadA16 s)) : LoadsWord i n (s.wordAt a) s :=
  loadsWord_of_exec (readWord_state a s) hexec

/-! ## A signed offset -/

theorem sext_toInt (v : Byte) : (sext v).toInt = v.toInt := BitVec.toInt_signExtend_of_le (by decide)

/-- A word plus a sign-extended byte, modulo 65536 (00_scope R13, 20_memory R75). -/
theorem add_sext_toNat (x : Word) (v : Byte) : ((x + sext v).toNat : Int) = (x.toNat + v.toInt) % 65536 := by
  rw [← sext_toInt, BitVec.toInt_eq_toNat_cond, BitVec.toNat_add]
  split <;> omega

/-- Settles O19: each form is one of the two loads, of an operand or of what a read of its address returns. -/
theorem loadsIntoA : Obligations.LoadsIntoA := fun s =>
  ⟨fun _ => loadsByte_of_exec rfl rfl, fun _ => loadsByte_memory rfl, fun _ => loadsByte_memory rfl,
    fun _ => loadsByte_memory rfl, loadsByte_memory rfl, loadsByte_memory rfl, fun _ => loadsByte_memory rfl,
    fun _ => loadsWord_of_exec rfl rfl, fun _ => loadsWord_memory rfl, fun _ => loadsWord_memory rfl,
    fun _ => loadsWord_memory rfl, loadsWord_memory rfl, loadsWord_memory rfl, fun off => add_sext_toNat s.ix off⟩

end Sys2Proof.Machine

/-! The transfer instructions that store, move a register or move PS: each form is one shared operation at its address
or one register update (40_transfer R143 to R147, R155 to R163, R170 to R190). -/

namespace Sys2Proof.Machine

open Sys2Proof.Claims

/-! ## Stores -/

theorem storesByte_of_exec {i : Instr} {n : Nat} {a : Word} {v : Byte} {s : State}
    (hexec : exec i s = finish n (writeByte a v s)) : StoresByte i n a v s := by
  refine ⟨_, hexec, advances_of_pc (writeByte_nextPC ..), fun ha => ?_, writeByte_bus_sent a v s⟩
  rw [State.advance_byteAt, byteAt_writeByte_same v ha]

/-- The upper byte of a word is sent first (20_memory R64). -/
theorem writeWord_bus_sent (a w : Word) (s : State) :
    (writeWord a w s).bus = sent s (a + 1) (lo w) ++ sent s a (hi w) ++ s.bus := by
  rw [writeWord_eq, writeByte_bus_sent, writeByte_bus_sent, sent_congr (writeByte_product ..), List.append_assoc]

theorem storesWord_of_exec {i : Instr} {n : Nat} {a w : Word} {s : State}
    (hexec : exec i s = finish n (writeWord a w s)) : StoresWord i n a w s := by
  refine ⟨_, hexec, advances_of_pc (writeWord_nextPC ..), fun ha => ?_, fun ha => ?_, writeWord_bus_sent a w s⟩
  · rw [State.advance_byteAt, byteAt_writeWord_hi w ha, hi_toNat]
  · rw [State.advance_byteAt, byteAt_writeWord_lo w ha, lo_toNat]

/-- Settles O20: each form is one byte write to its address. -/
theorem byteStores : Obligations.ByteStores := fun _ =>
  ⟨fun _ => storesByte_of_exec rfl, fun _ => storesByte_of_exec rfl, fun _ => storesByte_of_exec rfl,
    storesByte_of_exec rfl, fun _ => storesByte_of_exec rfl, storesByte_of_exec rfl,
    fun _ _ => storesByte_of_exec rfl, fun _ _ => storesByte_of_exec rfl, fun _ => storesByte_of_exec rfl,
    fun _ _ => storesByte_of_exec rfl⟩

/-- Settles O21: each form is one word write to its address. -/
theorem wordStores : Obligations.WordStores := fun _ =>
  ⟨fun _ => storesWord_of_exec rfl, fun _ => storesWord_of_exec rfl, fun _ => storesWord_of_exec rfl,
    storesWord_of_exec rfl, storesWord_of_exec rfl⟩

/-! ## One bit of a byte -/

theorem getLsbD_bitMask {b k : Nat} (hk : k < 8) : (bitMask b).getLsbD k = decide (k = b) := by
  rw [bitMask, ← BitVec.twoPow_eq, BitVec.getLsbD_twoPow]
  grind

theorem getLsbD_or_bitMask {b k : Nat} (m : Byte) (hk : k < 8) :
    (m ||| bitMask b).getLsbD k = if k = b then true else m.getLsbD k := by
  rw [BitVec.getLsbD_or, getLsbD_bitMask hk]
  by_cases h : k = b <;> simp [h]

theorem getLsbD_and_not_bitMask {b k : Nat} (m : Byte) (hk : k < 8) :
    (m &&& ~~~bitMask b).getLsbD k = if k = b then false else m.getLsbD k := by
  rw [BitVec.getLsbD_and, BitVec.getLsbD_not, getLsbD_bitMask hk]
  by_cases h : k = b <;> simp [h, hk]

/-- A read-modify-write whose function sets bit `b` of the byte to `bit` and keeps the others. -/
theorem writesBit_of_exec {i : Instr} {a : Word} {b : Nat} {bit : Bool} {f : Byte → Byte} {s : State}
    (hexec : exec i s = finish 2 (modifyByte a f s))
    (hf : ∀ m k, k < 8 → (f m).getLsbD k = if k = b then bit else m.getLsbD k) : WritesBit i a b bit s := by
  refine ⟨_, f (readByte true a s).1, hexec, advances_of_pc ?_, hf _, fun ha => ?_, ?_⟩
  · rw [State.advance_pc, modifyByte_eq, writeByte_nextPC, readByte_nextPC]
  · rw [State.advance_byteAt, modifyByte_eq, byteAt_writeByte_same _ ((readByte_storesInside ..).trans ha)]
  · rw [State.advance_bus, modifyByte_eq, writeByte_bus_sent, sent_congr (readByte_product ..)]

/-- Settles O24: SETB joins the mask of its bit to the byte read, and CLRB takes it out. -/
theorem bitSetAndClear : Obligations.BitSetAndClear := fun _ _ _ _ =>
  ⟨writesBit_of_exec rfl fun m _ hk => getLsbD_or_bitMask m hk,
    writesBit_of_exec rfl fun m _ hk => getLsbD_and_not_bitMask m hk⟩

/-! ## Moves between registers -/

/-- An instruction that ends with `PC <- nextPC` after the update `u` of the registers, which leaves PC. -/
theorem exec_finish_withPc {i : Instr} {n : Nat} {s u : State} (hexec : exec i s = finish n u) (hpc : u.pc = s.pc) :
    ∃ t, exec i s = .next t ∧ t = u.withPc t.pc ∧ Advances n s t :=
  ⟨_, hexec, rfl, advances_of_pc (congrArg (· + BitVec.ofNat 16 n) hpc)⟩

/-- Settles O22: each move is an update of one register, each exchange of two, the values being those of before. -/
theorem registerMovesAndExchanges : Obligations.RegisterMovesAndExchanges := fun _ s =>
  ⟨exec_finish_withPc rfl rfl, exec_finish_withPc rfl rfl, exec_finish_withPc rfl rfl, exec_finish_withPc rfl rfl,
    exec_finish_withPc rfl rfl, exec_finish_withPc rfl rfl,
    ⟨_, rfl, rfl, advances_of_pc rfl⟩,
    exec_finish_withPc rfl rfl, exec_finish_withPc rfl rfl, exec_finish_withPc rfl rfl,
    ⟨_, rfl, lo_join s.al s.ah, hi_join s.al s.ah, rfl, advances_of_pc rfl⟩,
    ⟨_, rfl, lo_join s.ah s.tl, lo_join s.th s.al, hi_join s.ah s.tl, hi_join s.th s.al, rfl, advances_of_pc rfl⟩,
    exec_finish_withPc rfl rfl, exec_finish_withPc rfl rfl, exec_finish_withPc rfl rfl, exec_finish_withPc rfl rfl⟩

/-! ## PS as a word -/

theorem Status.ofWord_rp_toNat (w : Word) : (Status.ofWord w).rp.toNat = w.toNat / 2048 := by
  have hrp : (Status.ofWord w).rp.toNat = (hi w).toNat / 8 := Status.withHigh_rp_toNat (hi w) (Status.ofWord w)
  rw [hrp, hi_toNat]
  omega

theorem Status.ofWord_dp_toNat (w : Word) : (Status.ofWord w).dp.toNat = w.toNat / 256 % 8 := by
  have hdp : (Status.ofWord w).dp.toNat = (hi w).toNat % 8 := Status.withHigh_dp_toNat (hi w) (Status.ofWord w)
  rw [hdp, hi_toNat]

theorem Status.ofWord_il_toNat (w : Word) : (Status.ofWord w).il.toNat = w.toNat / 16 % 4 := by
  have hil : (Status.ofWord w).il.toNat = (lo w).toNat / 16 % 4 := by
    rw [← Nat.shiftRight_eq_div_pow _ 4]
    exact BitVec.extractLsb'_toNat ..
  rw [hil, lo_toNat]
  omega

theorem getLsbD_lo {k : Nat} (w : Word) (hk : k < 8) : (lo w).getLsbD k = w.getLsbD k := by
  simp [lo, hk]

/-- Settles O23: A receives the word of the layout of PS, and PS is loaded field by field from the bits of A. -/
theorem statusMoves : Obligations.StatusMoves := by
  intro s
  obtain ⟨hlayout, -, -⟩ := statusLayout
  exact ⟨⟨_, rfl, advances_of_pc rfl, rfl, rfl, hlayout s.ps⟩,
    ⟨_, rfl, advances_of_pc rfl, rfl, Status.ofWord_rp_toNat s.a, Status.ofWord_dp_toNat s.a,
      getLsbD_lo s.a (by decide), getLsbD_lo s.a (by decide), Status.ofWord_il_toNat s.a, getLsbD_lo s.a (by decide),
      getLsbD_lo s.a (by decide), getLsbD_lo s.a (by decide), getLsbD_lo s.a (by decide)⟩⟩

end Sys2Proof.Machine

/-! The frame of the registers and flags: which fields each shared operation writes, and that no instruction writes
another (40_transfer R141, 41_arithmetic R271, 42_branch R302, 43_other R332). RP and DP stand apart: a store to 0078H
writes them whatever the instruction, so they follow from the list of its accesses. -/

namespace Sys2Proof.Machine

/-! ## Frames -/

/-- Every field of `s` but RP, DP and those in `fs` has its value in `t`. -/
def KeepsAllBut (fs : List Field) (s t : State) : Prop :=
  ∀ f, f ∉ Field.rp :: Field.dp :: fs → t.field f = s.field f

theorem Field.forall_iff {P : Field → Prop} :
    (∀ f, P f) ↔ P .ah ∧ P .al ∧ P .th ∧ P .tl ∧ P .ix ∧ P .ep ∧ P .sp ∧ P .rp ∧ P .dp ∧ P .h ∧ P .i ∧ P .il ∧
      P .n ∧ P .z ∧ P .v ∧ P .c := by
  refine ⟨fun h => by simp [h], fun h f => ?_⟩
  cases f <;> simp [h]

theorem bool_toNat_inj {b c : Bool} : b.toNat = c.toNat ↔ b = c :=
  (Function.LeftInverse.injective Bool.ofNat_toNat).eq_iff

/-- The frame written out: one equation per field that is not listed. -/
theorem keepsAllBut_iff {fs : List Field} {s t : State} :
    KeepsAllBut fs s t ↔
      (.ah ∉ fs → t.ah = s.ah) ∧ (.al ∉ fs → t.al = s.al) ∧ (.th ∉ fs → t.th = s.th) ∧ (.tl ∉ fs → t.tl = s.tl) ∧
      (.ix ∉ fs → t.ix = s.ix) ∧ (.ep ∉ fs → t.ep = s.ep) ∧ (.sp ∉ fs → t.sp = s.sp) ∧
      (.h ∉ fs → t.ps.h = s.ps.h) ∧ (.i ∉ fs → t.ps.i = s.ps.i) ∧ (.il ∉ fs → t.ps.il = s.ps.il) ∧
      (.n ∉ fs → t.ps.n = s.ps.n) ∧ (.z ∉ fs → t.ps.z = s.ps.z) ∧ (.v ∉ fs → t.ps.v = s.ps.v) ∧
      (.c ∉ fs → t.ps.c = s.ps.c) := by
  simp [KeepsAllBut, Field.forall_iff, State.field, BitVec.toNat_inj, bool_toNat_inj]

theorem KeepsAllBut.trans {fs gs : List Field} {s t u : State} (h : KeepsAllBut fs s t) (h' : KeepsAllBut gs t u) :
    KeepsAllBut (fs ++ gs) s u := by
  intro f hf
  simp only [List.mem_cons, List.mem_append, not_or] at hf
  obtain ⟨hrp, hdp, hfs, hgs⟩ := hf
  rw [h' f (by simp [hrp, hdp, hgs]), h f (by simp [hrp, hdp, hfs])]

/-! ## The registers -/

section

variable (s : State)

theorem withA_keeps (x : Word) : KeepsAllBut [.ah, .al] s (s.withA x) := by simp [keepsAllBut_iff]
theorem withAl_keeps (x : Byte) : KeepsAllBut [.al] s (s.withAl x) := by simp [keepsAllBut_iff]
theorem withT_keeps (x : Word) : KeepsAllBut [.th, .tl] s (s.withT x) := by simp [keepsAllBut_iff]
theorem withTl_keeps (x : Byte) : KeepsAllBut [.tl] s (s.withTl x) := by simp [keepsAllBut_iff]
theorem withIx_keeps (x : Word) : KeepsAllBut [.ix] s (s.withIx x) := by simp [keepsAllBut_iff]
theorem withEp_keeps (x : Word) : KeepsAllBut [.ep] s (s.withEp x) := by simp [keepsAllBut_iff]
theorem withSp_keeps (x : Word) : KeepsAllBut [.sp] s (s.withSp x) := by simp [keepsAllBut_iff]
theorem withPc_keeps (x : Word) : KeepsAllBut [] s (s.withPc x) := by simp [keepsAllBut_iff]

/-- A load of PS writes its fields alone. -/
theorem withPs_keeps (p : Status) : KeepsAllBut [.rp, .dp, .h, .i, .il, .n, .z, .v, .c] s (s.withPs p) := by
  simp [keepsAllBut_iff]

/-! ## Memory -/

theorem readByte_keeps (rmw : Bool) (a : Word) : KeepsAllBut [] s (readByte rmw a s).2 := by simp [keepsAllBut_iff]
theorem readWord_keeps (a : Word) : KeepsAllBut [] s (readWord a s).2 := by simp [keepsAllBut_iff]
theorem writeByte_keeps (a : Word) (v : Byte) : KeepsAllBut [] s (writeByte a v s) := by simp [keepsAllBut_iff]

theorem writeWord_keeps (a w : Word) : KeepsAllBut [] s (writeWord a w s) :=
  (writeByte_keeps s a (hi w)).trans (writeByte_keeps _ (a + 1) (lo w))

theorem modifyByte_keeps (a : Word) (f : Byte → Byte) : KeepsAllBut [] s (modifyByte a f s) :=
  (readByte_keeps s true a).trans (writeByte_keeps _ a _)

theorem push16_keeps (w : Word) : KeepsAllBut [.sp] s (push16 w s) :=
  ((writeByte_keeps s _ (lo w)).trans (writeByte_keeps _ _ (hi w))).trans (withSp_keeps _ _)

theorem pop16_keeps : KeepsAllBut [.sp] s (pop16 s).2 := (readWord_keeps s s.sp).trans (withSp_keeps _ _)

/-! ## What the instructions do with their operands -/

theorem loadA8_keeps (v : Byte) : KeepsAllBut [.tl, .al, .n, .z] s (loadA8 v s) := by
  simp [keepsAllBut_iff, loadA8, Status.nzByte]

theorem loadA16_keeps (v : Word) : KeepsAllBut [.th, .tl, .ah, .al, .n, .z] s (loadA16 v s) := by
  simp [keepsAllBut_iff, loadA16, Status.nzWord]

theorem setAlSum_keeps (f : ByteSum) : KeepsAllBut [.al, .n, .z, .v, .c, .h] s (setAlSum f s) := by
  simp [keepsAllBut_iff, setAlSum, Status.arithByte, Status.nzByte]

theorem setASum_keeps (f : WordSum) : KeepsAllBut [.ah, .al, .n, .z, .v, .c, .h] s (setASum f s) := by
  simp [keepsAllBut_iff, setASum, withBit_eq, Status.arithWord, Status.nzWord]

theorem addToAl_keeps (m : Byte) : KeepsAllBut [.al, .n, .z, .v, .c, .h] s (addToAl m s) := setAlSum_keeps s _
theorem subFromAl_keeps (m : Byte) : KeepsAllBut [.al, .n, .z, .v, .c, .h] s (subFromAl m s) := setAlSum_keeps s _

theorem compareBytes_keeps (x y : Byte) : KeepsAllBut [.n, .z, .v, .c, .h] s (compareBytes x y s) := by
  simp [keepsAllBut_iff, compareBytes, withBit_eq, Status.compareByte, Status.nzByte]

theorem compareWords_keeps (x y : Word) : KeepsAllBut [.n, .z, .v, .c, .h] s (compareWords x y s) := by
  simp [keepsAllBut_iff, compareWords, withBit_eq, Status.arithWord, Status.nzWord]

theorem compareAl_keeps (m : Byte) : KeepsAllBut [.n, .z, .v, .c, .h] s (compareAl m s) := compareBytes_keeps s s.al m

theorem setAlLogic_keeps (r : Byte) : KeepsAllBut [.al, .n, .z, .v] s (setAlLogic r s) := by
  simp [keepsAllBut_iff, setAlLogic, Status.logicByte, Status.nzByte]

theorem setALogic_keeps (r : Word) : KeepsAllBut [.ah, .al, .n, .z, .v] s (setALogic r s) := by
  simp [keepsAllBut_iff, setALogic, Status.logicWord, Status.nzWord]

theorem andAl_keeps (m : Byte) : KeepsAllBut [.al, .n, .z, .v] s (andAl m s) := setAlLogic_keeps s _
theorem orAl_keeps (m : Byte) : KeepsAllBut [.al, .n, .z, .v] s (orAl m s) := setAlLogic_keeps s _
theorem xorAl_keeps (m : Byte) : KeepsAllBut [.al, .n, .z, .v] s (xorAl m s) := setAlLogic_keeps s _

theorem setACount_keeps (r : Word) : KeepsAllBut [.ah, .al, .n, .z, .h] s (setACount r s) := by
  simp [keepsAllBut_iff, setACount, withBit_eq, Status.countWord, Status.nzWord]

theorem countFlags_keep (r : Byte) (v : Bool) :
    KeepsAllBut [.n, .z, .v, .h] s (withBit (fun h u => u.withPs (u.ps.countByte r v h)) s) := by
  simp [keepsAllBut_iff, withBit_eq, Status.countByte, Status.nzByte]

theorem countReg_keeps (a : Word) (f : Byte → Byte) (v : Byte → Bool) :
    KeepsAllBut [.n, .z, .v, .h] s (countReg a f v s) :=
  (modifyByte_keeps s a f).trans (countFlags_keep _ _ _)

theorem setAlRotated_keeps (r : Byte × Bool) : KeepsAllBut [.al, .n, .z, .c] s (setAlRotated r s) := by
  simp [keepsAllBut_iff, setAlRotated, Status.rotate, Status.nzByte]

theorem divideT_keeps : KeepsAllBut [.ah, .al, .th, .tl, .z] s (divideT s) := by
  rw [divideT_eq]
  simp [keepsAllBut_iff]

theorem decimalAfterAdd_keeps : KeepsAllBut [.al, .n, .z, .v, .c] s (decimalAfterAdd s) := by
  rw [decimalAfterAdd_eq]
  simp [keepsAllBut_iff]

theorem decimalAfterSub_keeps : KeepsAllBut [.al, .n, .z, .v] s (decimalAfterSub s) := by
  simp [keepsAllBut_iff, decimalAfterSub, Status.adjustSub, Status.nzByte]

theorem withZ_keeps (b : Bool) : KeepsAllBut [.z] s (s.withPs { s.ps with z := b }) := by simp [keepsAllBut_iff]
theorem withI_keeps (b : Bool) : KeepsAllBut [.i] s (s.withPs { s.ps with i := b }) := by simp [keepsAllBut_iff]
theorem withC_keeps (b : Bool) : KeepsAllBut [.c] s (s.withPs { s.ps with c := b }) := by simp [keepsAllBut_iff]

theorem returnFromInterrupt_keeps :
    KeepsAllBut [.sp, .rp, .dp, .h, .i, .il, .n, .z, .v, .c] s (returnFromInterrupt s) := by
  simp [keepsAllBut_iff, returnFromInterrupt]

end

/-! ## The instructions -/

/-- The outcome is a next state with every field of `s` but RP, DP and those that `writtenFields` lists. -/
def KeepsUnlisted (i : Instr) (s : State) (o : Host.Outcome State Fault Refusal) : Prop :=
  ∃ t, o = .next t ∧ KeepsAllBut (writtenFields i) s t

theorem keepsUnlisted_next {i : Instr} {s t : State} (h : KeepsAllBut (writtenFields i) s t) :
    KeepsUnlisted i s (.next t) := ⟨t, rfl, h⟩

/-- PC is no field of the frame. -/
theorem keepsUnlisted_withPc {i : Instr} {x : Word} {s t : State} (h : KeepsAllBut (writtenFields i) s t) :
    KeepsUnlisted i s (.next (t.withPc x)) := by
  have hpc := h.trans (withPc_keeps t x)
  rw [List.append_nil] at hpc
  exact keepsUnlisted_next hpc

theorem keepsUnlisted_finish {i : Instr} {n : Nat} {s t : State} (h : KeepsAllBut (writtenFields i) s t) :
    KeepsUnlisted i s (finish n t) := keepsUnlisted_withPc h

theorem keepsUnlisted_withByte {i : Instr} {n : Nat} {a : Word} {k : Byte → State → State} {s : State}
    (hk : ∀ u v, KeepsAllBut (writtenFields i) u (k v u)) : KeepsUnlisted i s (finish n (withByte a k s)) :=
  keepsUnlisted_finish ((readByte_keeps s false a).trans (hk _ _))

theorem keepsUnlisted_withWord {i : Instr} {n : Nat} {a : Word} {k : Word → State → State} {s : State}
    (hk : ∀ u v, KeepsAllBut (writtenFields i) u (k v u)) : KeepsUnlisted i s (finish n (withWord a k s)) :=
  keepsUnlisted_finish ((readWord_keeps s a).trans (hk _ _))

theorem branchOnBit_keepsUnlisted {i : Instr} (hi : writtenFields i = [.z]) (want : Bool) (dir : Byte) (b : Nat)
    (rel : Byte) (s : State) : KeepsUnlisted i s (branchOnBit want dir b rel s) := by
  apply keepsUnlisted_withPc
  rw [hi, ← readByte_ps false (dirAddr dir s) s]
  exact (readByte_keeps s false (dirAddr dir s)).trans (withZ_keeps _ _)

/-- Every instruction, in every state, keeps the fields that it does not list, RP and DP aside. -/
theorem exec_keepsUnlisted (i : Instr) (s : State) : KeepsUnlisted i s (exec i s) := by
  cases i with
  -- one or two registers, or PS
  | swap | movwAPs | movwAPc | movwASp | movwAIx | movwAEp | muluA => exact keepsUnlisted_finish (withA_keeps s _)
  | xchAT => exact keepsUnlisted_finish ((withAl_keeps s _).trans (withTl_keeps _ _))
  | xchwAT => exact keepsUnlisted_finish ((withA_keeps s _).trans (withT_keeps _ _))
  | xchwASp => exact keepsUnlisted_finish ((withA_keeps s _).trans (withSp_keeps _ _))
  | xchwAIx => exact keepsUnlisted_finish ((withA_keeps s _).trans (withIx_keeps _ _))
  | xchwAEp => exact keepsUnlisted_finish ((withA_keeps s _).trans (withEp_keeps _ _))
  | movwSpA | movwSpImm | incwSp | decwSp => exact keepsUnlisted_finish (withSp_keeps s _)
  | movwIxA | movwIxImm | incwIx | decwIx => exact keepsUnlisted_finish (withIx_keeps s _)
  | movwEpA | movwEpImm | incwEp | decwEp => exact keepsUnlisted_finish (withEp_keeps s _)
  | movwPsA => exact keepsUnlisted_finish (withPs_keeps s _)
  -- loads
  | movAImm => exact keepsUnlisted_finish (loadA8_keeps s _)
  | movwAImm => exact keepsUnlisted_finish (loadA16_keeps s _)
  | movADir | movAAtIx | movAAtEp | movAReg | movAExt | movAAtA => exact keepsUnlisted_withByte loadA8_keeps
  | movwAAtA | movwAExt | movwADir | movwAAtIx | movwAAtEp => exact keepsUnlisted_withWord loadA16_keeps
  -- stores
  | movDirA | movAtIxA | movAtEpA | movRegA | movExtA | movAtAT | movDirImm | movAtIxImm | movAtEpImm | movRegImm =>
    exact keepsUnlisted_finish (writeByte_keeps s _ _)
  | movwAtAT | movwExtA | movwDirA | movwAtIxA | movwAtEpA => exact keepsUnlisted_finish (writeWord_keeps s _ _)
  | clrb | setb => exact keepsUnlisted_finish (modifyByte_keeps s _ _)
  -- operations on operands in registers
  | rolcA | rorcA => exact keepsUnlisted_finish (setAlRotated_keeps s _)
  | divuA => exact keepsUnlisted_finish (divideT_keeps s)
  | daa => exact keepsUnlisted_finish (decimalAfterAdd_keeps s)
  | das => exact keepsUnlisted_finish (decimalAfterSub_keeps s)
  | cmpA | cmpAImm => exact keepsUnlisted_finish (compareBytes_keeps s _ _)
  | cmpwA => exact keepsUnlisted_finish (compareWords_keeps s _ _)
  | addcA | addcAImm | subcA | subcAImm => exact keepsUnlisted_finish (setAlSum_keeps s _)
  | addcwA | subcwA => exact keepsUnlisted_finish (setASum_keeps s _)
  | xorA | xorAImm | andA | andAImm | orA | orAImm => exact keepsUnlisted_finish (setAlLogic_keeps s _)
  | xorwA | andwA | orwA => exact keepsUnlisted_finish (setALogic_keeps s _)
  | incwA | decwA => exact keepsUnlisted_finish (setACount_keeps s _)
  -- operations on an operand in memory
  | cmpADir | cmpAAtIx | cmpAAtEp | cmpAReg => exact keepsUnlisted_withByte compareAl_keeps
  | addcADir | addcAAtIx | addcAAtEp | addcAReg => exact keepsUnlisted_withByte addToAl_keeps
  | subcADir | subcAAtIx | subcAAtEp | subcAReg => exact keepsUnlisted_withByte subFromAl_keeps
  | xorADir | xorAAtIx | xorAAtEp | xorAReg => exact keepsUnlisted_withByte xorAl_keeps
  | andADir | andAAtIx | andAAtEp | andAReg => exact keepsUnlisted_withByte andAl_keeps
  | orADir | orAAtIx | orAAtEp | orAReg => exact keepsUnlisted_withByte orAl_keeps
  | cmpDirImm _ d8 | cmpAtIxImm _ d8 | cmpAtEpImm d8 | cmpRegImm _ d8 =>
    exact keepsUnlisted_withByte (fun u m => compareBytes_keeps u m d8)
  | incReg | decReg => exact keepsUnlisted_finish (countReg_keeps s _ _ _)
  -- branches
  | jmpExt | jmpAtA | bnc | bc | bp | bn | bnz | bz | bge | blt => exact keepsUnlisted_next (withPc_keeps s _)
  | xchwAPc => exact keepsUnlisted_withPc (withA_keeps s _)
  | bbc dir b rel => exact branchOnBit_keepsUnlisted rfl false dir b rel s
  | bbs dir b rel => exact branchOnBit_keepsUnlisted rfl true dir b rel s
  | callExt => exact keepsUnlisted_withPc (push16_keeps s _)
  | callv vct => exact keepsUnlisted_withPc ((readWord_keeps s (callvAddr vct)).trans (push16_keeps _ _))
  | ret => exact keepsUnlisted_withPc (pop16_keeps s)
  | reti => exact keepsUnlisted_next (returnFromInterrupt_keeps s)
  -- other instructions
  | nop => exact keepsUnlisted_next (withPc_keeps s _)
  | pushwA | pushwIx => exact keepsUnlisted_finish (push16_keeps s _)
  | popwA => exact keepsUnlisted_finish ((pop16_keeps s).trans (withA_keeps _ _))
  | popwIx => exact keepsUnlisted_finish ((pop16_keeps s).trans (withIx_keeps _ _))
  | clri | seti => exact keepsUnlisted_finish (withI_keeps s _)
  | clrc | setc => exact keepsUnlisted_finish (withC_keeps s _)

/-! ## RP and DP -/

/-- RP and DP are the two parts of PS[15:8]. -/
theorem Status.rp_dp_of_high {p q : Status} (h : p.high = q.high) : p.rp = q.rp ∧ p.dp = q.dp := by
  have hsum := congrArg BitVec.toNat h
  rw [p.high_toNat, q.high_toNat] at hsum
  have hp := p.dp.isLt
  have hq := q.dp.isLt
  exact ⟨BitVec.eq_of_toNat_eq (by omega), BitVec.eq_of_toNat_eq (by omega)⟩

/-- Writes elsewhere than at 0078H leave PS (20_memory R79). -/
theorem writeAll_ps {writes : List (Word × Byte)} {s : State} (h : mirrorAddr ∉ writes.map Prod.fst) :
    (writeAll writes s).ps = s.ps := by
  induction writes generalizing s with
  | nil => rfl
  | cons w writes ih =>
    obtain ⟨hhead, htail⟩ := not_or.1 (List.mem_cons.not.1 h)
    rw [writeAll_cons, ih htail, writeByte_ps, if_neg (Ne.symm hhead)]

/-- An instruction that neither loads PS nor stores to 0078H leaves PS[15:8]. -/
theorem exec_ps_high {i : Instr} {s t : State} (h : exec i s = .next t) (hps : i ≠ .movwPsA) (hreti : i ≠ .reti)
    (hstore : mirrorAddr ∉ storeAddrs i s) : t.ps.high = s.ps.high := by
  obtain ⟨rmw, writes, haddrs, -, hhigh⟩ := accesses_of_exec h
  rw [hhigh hps hreti, writeAll_ps (haddrs ▸ hstore), readAll_state, State.withBus_ps]

/-- The two instructions that load PS list RP and DP both; any other leaves both unless it stores to 0078H. -/
theorem exec_rp_dp {i : Instr} {s t : State} (h : exec i s = .next t)
    (hi : .rp ∉ writtenFields i ∨ .dp ∉ writtenFields i) (hstore : mirrorAddr ∉ storeAddrs i s) :
    t.ps.rp = s.ps.rp ∧ t.ps.dp = s.ps.dp := by
  have hps : i ≠ .movwPsA := by rintro rfl; simp [writtenFields] at hi
  have hreti : i ≠ .reti := by rintro rfl; simp [writtenFields] at hi
  exact Status.rp_dp_of_high (exec_ps_high h hps hreti hstore)

/-- Settles O16: RP and DP stand with PS[15:8], which only a load of PS and a store to 0078H write; every other field is
kept by each shared operation that does not list it. -/
theorem unlistedFieldsKeepTheirValue : Obligations.UnlistedFieldsKeepTheirValue := by
  intro i s t f hexec hf hstore
  by_cases hhigh : f = .rp ∨ f = .dp
  · rcases hhigh with rfl | rfl
    · obtain ⟨hrp, -⟩ := exec_rp_dp hexec (.inl hf) (hstore (.inl rfl))
      exact congrArg BitVec.toNat hrp
    · obtain ⟨-, hdp⟩ := exec_rp_dp hexec (.inr hf) (hstore (.inr rfl))
      exact congrArg BitVec.toNat hdp
  · obtain ⟨t', hnext, hkeeps⟩ := exec_keepsUnlisted i s
    cases hexec.symm.trans hnext
    obtain ⟨hrp, hdp⟩ := not_or.1 hhigh
    exact hkeeps f (by simp [hrp, hdp, hf])

end Sys2Proof.Machine

/-! The additions and subtractions with a carry: the overflow of a sum and of a difference said by the sign bits, and
the fourteen instructions that set A or AL to one (41_arithmetic R201, R202, R207 to R220). -/

namespace Sys2Proof.Machine

open Sys2Proof.Claims

/-! ## Overflow by the sign bits, at any width -/

/-- The signed value of a word whose numbers are those below `2 * M`. -/
theorem toInt_cases {w M : Nat} (hM : 2 ^ w = 2 * M) (x : BitVec w) :
    (x.toNat < M ∧ x.toInt = x.toNat) ∨ (M ≤ x.toNat ∧ x.toNat < 2 * M ∧ x.toInt = (x.toNat : Int) - 2 * M) := by
  have hint := BitVec.toInt_eq_toNat_cond x
  have hlt := x.isLt
  rw [hM] at hint hlt
  split at hint <;> omega

/-- A sum with its carry out `k` leaves the signed range exactly where the operands have one sign and the result the
other. -/
theorem sum_overflow_eq_msb {w M : Nat} (hM : 2 ^ w = 2 * M) {x y r : BitVec w} {c k : Bool}
    (hsum : x.toNat + y.toNat + c.toNat = r.toNat + (2 * M) * k.toNat) :
    (decide (x.toInt + y.toInt + (c.toNat : Int) < -(M : Int)) ||
      decide ((M : Int) - 1 < x.toInt + y.toInt + (c.toNat : Int))) = (x.msb == y.msb && r.msb != x.msb) := by
  have hx := toInt_cases hM x
  have hy := toInt_cases hM y
  have hr := toInt_cases hM r
  have hc := c.toNat_le
  rw [Bool.eq_iff_iff]
  simp only [BitVec.msb_eq_toInt, Bool.or_eq_true, Bool.and_eq_true, decide_eq_true_eq, beq_iff_eq, bne_iff_ne, ne_eq,
    decide_eq_decide]
  cases k with
  | false => rw [Bool.toNat_false] at hsum; omega
  | true => rw [Bool.toNat_true] at hsum; omega

/-- A difference with its borrow out `k` leaves the signed range exactly where the operands have different signs and
the result has not that of the minuend. -/
theorem difference_overflow_eq_msb {w M : Nat} (hM : 2 ^ w = 2 * M) {x y r : BitVec w} {c k : Bool}
    (hdiff : x.toNat + (2 * M) * k.toNat = r.toNat + y.toNat + c.toNat) :
    (decide (x.toInt - y.toInt - (c.toNat : Int) < -(M : Int)) ||
      decide ((M : Int) - 1 < x.toInt - y.toInt - (c.toNat : Int))) = (x.msb != y.msb && r.msb != x.msb) := by
  have hx := toInt_cases hM x
  have hy := toInt_cases hM y
  have hr := toInt_cases hM r
  have hc := c.toNat_le
  rw [Bool.eq_iff_iff]
  simp only [BitVec.msb_eq_toInt, Bool.or_eq_true, Bool.and_eq_true, decide_eq_true_eq, bne_iff_ne, ne_eq,
    decide_eq_decide]
  cases k with
  | false => rw [Bool.toNat_false] at hdiff; omega
  | true => rw [Bool.toNat_true] at hdiff; omega

/-! ## The adder -/

theorem add8_toNat (x y : Byte) (c : Bool) : (add8 x y c).r.toNat = (x.toNat + y.toNat + c.toNat) % 256 :=
  BitVec.toNat_ofNat _ 8

theorem add16_toNat (x y : Word) (c : Bool) : (add16 x y c).r.toNat = (x.toNat + y.toNat + c.toNat) % 65536 :=
  BitVec.toNat_ofNat _ 16

theorem sub8_toNat (x y : Byte) (c : Bool) :
    ((sub8 x y c).r.toNat : Int) = ((x.toNat : Int) - y.toNat - c.toNat) % 256 := by
  rw [sub8, BitVec.toNat_ofInt]
  exact Int.toNat_of_nonneg (Int.emod_nonneg _ (by decide))

theorem sub16_toNat (x y : Word) (c : Bool) :
    ((sub16 x y c).r.toNat : Int) = ((x.toNat : Int) - y.toNat - c.toNat) % 65536 := by
  rw [sub16, BitVec.toNat_ofInt]
  exact Int.toNat_of_nonneg (Int.emod_nonneg _ (by decide))

/-- C of a byte difference is the borrow out (41_arithmetic R202). -/
theorem sub8_borrow (x y : Byte) (c : Bool) : (sub8 x y c).c = decide (x.toNat < y.toNat + c.toNat) := by
  rw [sub8, decide_eq_decide]
  omega

theorem sub16_borrow (x y : Word) (c : Bool) : (sub16 x y c).c = decide (x.toNat < y.toNat + c.toNat) := by
  rw [sub16, decide_eq_decide]
  omega

/-- The number that a flag stands for is 1 where its condition holds and 0 where it does not. -/
theorem toNat_decide_cases (p : Prop) [Decidable p] : (p ∧ (decide p).toNat = 1) ∨ (¬p ∧ (decide p).toNat = 0) := by
  by_cases hp : p
  · exact .inl ⟨hp, by rw [decide_eq_true hp, Bool.toNat_true]⟩
  · exact .inr ⟨hp, by rw [decide_eq_false hp, Bool.toNat_false]⟩

/-- V of a byte sum (41_arithmetic R201). -/
theorem add8_overflow (x y : Byte) (c : Bool) :
    (add8 x y c).v = (x.msb == y.msb && (add8 x y c).r.msb != x.msb) := by
  refine sum_overflow_eq_msb (M := 128) rfl (k := decide (256 ≤ x.toNat + y.toNat + c.toNat)) ?_
  have hc := c.toNat_le
  have hk := toNat_decide_cases (256 ≤ x.toNat + y.toNat + c.toNat)
  rw [add8_toNat]
  omega

theorem add16_overflow (x y : Word) (c : Bool) :
    (add16 x y c).v = (x.msb == y.msb && (add16 x y c).r.msb != x.msb) := by
  refine sum_overflow_eq_msb (M := 32768) rfl (k := decide (65536 ≤ x.toNat + y.toNat + c.toNat)) ?_
  have hc := c.toNat_le
  have hk := toNat_decide_cases (65536 ≤ x.toNat + y.toNat + c.toNat)
  rw [add16_toNat]
  omega

/-- V of a byte difference (41_arithmetic R202). -/
theorem sub8_overflow (x y : Byte) (c : Bool) :
    (sub8 x y c).v = (x.msb != y.msb && (sub8 x y c).r.msb != x.msb) := by
  refine difference_overflow_eq_msb (M := 128) rfl (k := decide (x.toNat < y.toNat + c.toNat)) ?_
  have hc := c.toNat_le
  have hr := sub8_toNat x y c
  have hk := toNat_decide_cases (x.toNat < y.toNat + c.toNat)
  omega

theorem sub16_overflow (x y : Word) (c : Bool) :
    (sub16 x y c).v = (x.msb != y.msb && (sub16 x y c).r.msb != x.msb) := by
  refine difference_overflow_eq_msb (M := 32768) rfl (k := decide (x.toNat < y.toNat + c.toNat)) ?_
  have hc := c.toNat_le
  have hr := sub16_toNat x y c
  have hk := toNat_decide_cases (x.toNat < y.toNat + c.toNat)
  omega

/-! ## Byte additions and subtractions -/

/-- AL and the flags after a byte sum or difference made in a state that differs from `s` by what the environment has
seen. -/
theorem setAlSum_after_read {i : Instr} {n : Nat} {f : ByteSum} {s u : State} (hu : u = s.withBus u.bus)
    (hexec : exec i s = finish n (setAlSum f u)) :
    ∃ t, exec i s = .next t ∧ Advances n s t ∧ t.ah = s.ah ∧ t.al = f.r ∧ NZByte f.r t.ps ∧ t.ps.v = f.v ∧
      t.ps.c = f.c ∧ t.ps.h = f.h := by
  rw [hu] at hexec
  exact ⟨_, hexec, advances_of_pc rfl, hi_join _ _, lo_join _ _, nzByte_spec f.r s.ps, rfl, rfl, rfl⟩

theorem addsToAl_of_exec {i : Instr} {n : Nat} {m : Byte} {s u : State} (hu : u = s.withBus u.bus)
    (hexec : exec i s = finish n (setAlSum (add8 s.al m s.ps.c) u)) : AddsToAl i n m s := by
  obtain ⟨t, ht, hadv, hah, hal, hnz, hv, hc, hh⟩ := setAlSum_after_read hu hexec
  refine ⟨t, ht, hadv, hah, ?_, ?_, hc, hh, ?_⟩
  · rw [hal, add8_toNat]
  · rw [hal]; exact hnz
  · rw [hv, hal, add8_overflow]

theorem subtractsToAl_of_exec {i : Instr} {n : Nat} {x y : Byte} {s u : State} (hu : u = s.withBus u.bus)
    (hexec : exec i s = finish n (setAlSum (sub8 x y s.ps.c) u)) : SubtractsToAl i n x y s := by
  obtain ⟨t, ht, hadv, hah, hal, hnz, hv, hc, hh⟩ := setAlSum_after_read hu hexec
  refine ⟨t, ht, hadv, hah, ?_, ?_, ?_, hh, ?_⟩
  · rw [hal, sub8_toNat]
  · rw [hal]; exact hnz
  · rw [hc, sub8_borrow]
  · rw [hv, hal, sub8_overflow]

/-- ADDC A,<ea>: the read leaves AL and C. -/
theorem addsToAl_memory {i : Instr} {n : Nat} {a : Word} {s : State}
    (hexec : exec i s = finish n (withByte a addToAl s)) : AddsToAl i n (s.byteAt a) s := by
  rw [withByte_eq, addToAl, readByte_al, readByte_ps] at hexec
  exact addsToAl_of_exec (readByte_state false a s) hexec

/-- SUBC A,<ea>: AL, which the read leaves, is the minuend. -/
theorem subtractsToAl_memory {i : Instr} {n : Nat} {a : Word} {s : State}
    (hexec : exec i s = finish n (withByte a subFromAl s)) : SubtractsToAl i n s.al (s.byteAt a) s := by
  rw [withByte_eq, subFromAl, readByte_al, readByte_ps] at hexec
  exact subtractsToAl_of_exec (readByte_state false a s) hexec

/-- Settles O25: each form is the byte sum of AL, C and TL, an immediate or the byte read. -/
theorem byteAdditions : Obligations.ByteAdditions := fun _ =>
  ⟨addsToAl_of_exec rfl rfl, fun _ => addsToAl_memory rfl, fun _ => addsToAl_of_exec rfl rfl,
    fun _ => addsToAl_memory rfl, fun _ => addsToAl_memory rfl, addsToAl_memory rfl⟩

/-- Settles O26: SUBC A is the byte difference of TL and AL, the other forms that of AL and their operand. -/
theorem byteSubtractions : Obligations.ByteSubtractions := fun _ =>
  ⟨subtractsToAl_of_exec rfl rfl, fun _ => subtractsToAl_memory rfl, fun _ => subtractsToAl_of_exec rfl rfl,
    fun _ => subtractsToAl_memory rfl, fun _ => subtractsToAl_memory rfl, subtractsToAl_memory rfl⟩

/-! ## The word addition and subtraction -/

/-- A and the flags N, Z, V and C after a word sum or difference. -/
theorem setASum_effect {i : Instr} {f : WordSum} {s : State} (hexec : exec i s = finish 1 (setASum f s)) :
    ∃ t, exec i s = .next t ∧ Advances 1 s t ∧ t.t = s.t ∧ t.a = f.r ∧ NZWord f.r t.ps ∧ t.ps.v = f.v ∧
      t.ps.c = f.c :=
  ⟨_, hexec, advances_of_pc rfl, rfl, rfl, nzWord_spec f.r s.ps, rfl, rfl⟩

/-- Settles O27: both are one word sum or difference of A and T. -/
theorem wordAdditionAndSubtraction : Obligations.WordAdditionAndSubtraction := by
  intro s
  constructor
  · obtain ⟨t, hexec, hadv, ht, ha, hnz, hv, hc⟩ :=
      setASum_effect (i := .addcwA) (f := add16 s.a s.t s.ps.c) (s := s) rfl
    rw [← ha] at hnz
    exact ⟨t, hexec, hadv, ht, ha ▸ add16_toNat .., hnz, hc, by rw [hv, ha, add16_overflow]⟩
  · obtain ⟨t, hexec, hadv, ht, ha, hnz, hv, hc⟩ :=
      setASum_effect (i := .subcwA) (f := sub16 s.t s.a s.ps.c) (s := s) rfl
    rw [← ha] at hnz
    exact ⟨t, hexec, hadv, ht, ha ▸ sub16_toNat .., hnz, by rw [hc, sub16_borrow], by rw [hv, ha, sub16_overflow]⟩

end Sys2Proof.Machine

/-! The logical operations and the counts: N and Z from the result, and what each form leaves of V, C and H
(41_arithmetic R203, R232 to R260, R263, R264). -/

namespace Sys2Proof.Machine

open Sys2Proof.Claims

/-! ## Logical operations -/

/-- A logical operation on AL made in a state that differs from `s` by what the environment has seen. -/
theorem setsAlLogic_of_exec {i : Instr} {n : Nat} {r : Byte} {s u : State} (hu : u = s.withBus u.bus)
    (hexec : exec i s = finish n (setAlLogic r u)) : SetsAlLogic i n r s := by
  rw [hu] at hexec
  exact ⟨_, hexec, advances_of_pc rfl, lo_join _ r, hi_join _ r, nzByte_spec r s.ps, rfl, rfl, rfl⟩

/-- A logical operation `op` on AL, which the read leaves, and the byte read. -/
theorem setsAlLogic_memory (op : Byte → Byte → Byte) {i : Instr} {n : Nat} {a : Word} {s : State}
    (hexec : exec i s = finish n (withByte a (fun m u => setAlLogic (op u.al m) u) s)) :
    SetsAlLogic i n (op s.al (s.byteAt a)) s := by
  rw [withByte_eq, readByte_al] at hexec
  exact setsAlLogic_of_exec (readByte_state false a s) hexec

theorem setsALogic_of_exec {i : Instr} {r : Word} {s : State} (hexec : exec i s = finish 1 (setALogic r s)) :
    SetsALogic i r s :=
  ⟨_, hexec, advances_of_pc rfl, rfl, nzWord_spec r s.ps, rfl, rfl, rfl⟩

/-- Settles O29: each form is one logical operation on AL or A and its operand. -/
theorem logicalOperations : Obligations.LogicalOperations := fun _ =>
  ⟨setsAlLogic_of_exec rfl rfl, setsAlLogic_of_exec rfl rfl, setsAlLogic_of_exec rfl rfl,
    fun _ => ⟨setsAlLogic_memory (· &&& ·) rfl, setsAlLogic_memory (· ||| ·) rfl, setsAlLogic_memory (· ^^^ ·) rfl⟩,
    fun _ => ⟨setsAlLogic_of_exec rfl rfl, setsAlLogic_of_exec rfl rfl, setsAlLogic_of_exec rfl rfl⟩,
    fun _ => ⟨setsAlLogic_memory (· &&& ·) rfl, setsAlLogic_memory (· ||| ·) rfl, setsAlLogic_memory (· ^^^ ·) rfl⟩,
    fun _ => ⟨setsAlLogic_memory (· &&& ·) rfl, setsAlLogic_memory (· ||| ·) rfl, setsAlLogic_memory (· ^^^ ·) rfl⟩,
    setsAlLogic_memory (· &&& ·) rfl, setsAlLogic_memory (· ||| ·) rfl, setsAlLogic_memory (· ^^^ ·) rfl,
    setsALogic_of_exec rfl, setsALogic_of_exec rfl, setsALogic_of_exec rfl⟩

/-! ## Counts -/

theorem add_one_toNat (x : Word) : (x + 1).toNat = (x.toNat + 1) % 65536 := BitVec.toNat_add x 1

theorem sub_one_toNat (x : Word) : (x - 1).toNat = (x.toNat + 65535) % 65536 := by bv_omega

/-- INCW A and DECW A: N and Z from the new A, V and C as they were. -/
theorem setACount_effect {i : Instr} {r : Word} {s : State} (hexec : exec i s = finish 1 (setACount r s)) :
    ∃ t, exec i s = .next t ∧ Advances 1 s t ∧ t.a = r ∧ NZWord t.a t.ps ∧ t.ps.v = s.ps.v ∧ t.ps.c = s.ps.c :=
  ⟨_, hexec, advances_of_pc rfl, rfl, nzWord_spec r s.ps, rfl, rfl⟩

/-- Settles O30: each is one register plus or less 1, and A alone gives flags. -/
theorem wordCounts : Obligations.WordCounts := by
  intro s
  obtain ⟨t, hinc, hincPc, hincA, hincFlags⟩ := setACount_effect (i := .incwA) (r := s.a + 1) (s := s) rfl
  obtain ⟨u, hdec, hdecPc, hdecA, hdecFlags⟩ := setACount_effect (i := .decwA) (r := s.a - 1) (s := s) rfl
  exact ⟨⟨t, hinc, hincPc, hincA ▸ add_one_toNat s.a, hincFlags⟩,
    ⟨u, hdec, hdecPc, hdecA ▸ sub_one_toNat s.a, hdecFlags⟩,
    ⟨_, rfl, advances_of_pc rfl, add_one_toNat s.sp, rfl⟩, ⟨_, rfl, advances_of_pc rfl, sub_one_toNat s.sp, rfl⟩,
    ⟨_, rfl, advances_of_pc rfl, add_one_toNat s.ix, rfl⟩, ⟨_, rfl, advances_of_pc rfl, sub_one_toNat s.ix, rfl⟩,
    ⟨_, rfl, advances_of_pc rfl, add_one_toNat s.ep, rfl⟩, ⟨_, rfl, advances_of_pc rfl, sub_one_toNat s.ep, rfl⟩⟩

/-- A count is a read-modify-write of one byte, and then the flags of the byte written. -/
theorem countReg_eq (a : Word) (f : Byte → Byte) (v : Byte → Bool) (s : State) :
    countReg a f v s =
      withBit (fun h u => u.withPs (u.ps.countByte (f (readByte true a s).1) (v (readByte true a s).1) h))
        (modifyByte a f s) := rfl

/-- Flags are no part of PS[15:8], so the byte at every address is as before, 0078H included. -/
theorem byteAt_withPs_countByte (r : Byte) (v h : Bool) (s : State) (b : Word) :
    (s.withPs (s.ps.countByte r v h)).byteAt b = s.byteAt b :=
  byteAt_congr (s := s) (t := s.withPs (s.ps.countByte r v h)) rfl rfl rfl rfl b

theorem countsRegister_of_exec {i : Instr} {a : Word} {f : Byte → Byte} {g : Nat → Nat} {v : Byte} {s : State}
    (hexec : exec i s = finish 1 (countReg a f (fun m => m == v) s)) (hf : ∀ m : Byte, (f m).toNat = g m.toNat) :
    CountsRegister i a g v.toNat s := by
  rw [countReg_eq, withBit_eq] at hexec
  refine ⟨_, f (readByte true a s).1, hexec, advances_of_pc ?_, hf _, fun ha => ?_, ?_, nzByte_spec _ s.ps, ?_, ?_⟩
  · rw [State.advance_pc, State.withPs_nextPC, State.withFree_nextPC, modifyByte_eq, writeByte_nextPC, readByte_nextPC]
  · rw [State.advance_byteAt, byteAt_withPs_countByte, State.withFree_byteAt, modifyByte_eq,
      byteAt_writeByte_same _ ((readByte_storesInside ..).trans ha)]
  · rw [State.advance_bus, State.withPs_bus, State.withFree_bus, modifyByte_eq, writeByte_bus_sent,
      sent_congr (readByte_product ..)]
  · show ((readByte true a s).1 == v) = _
    rw [Bool.beq_eq_decide_eq, decide_eq_decide, ← BitVec.toNat_inj]
  · show (modifyByte a f s).ps.c = s.ps.c
    rw [modifyByte_eq, writeByte_ps_c, readByte_ps]

/-- Settles O31: the byte read with the RMW signal, plus or less 1 modulo 256, is written back. -/
theorem registerCounts : Obligations.RegisterCounts := fun _ _ =>
  ⟨countsRegister_of_exec (v := 0x7F#8) rfl fun m => BitVec.toNat_add m 1,
    countsRegister_of_exec (v := 0x80#8) rfl fun m => by bv_omega⟩

end Sys2Proof.Machine

/-! MULU A, DIVU A and the two rotations (41_arithmetic R261, R262, R265, R266). -/

namespace Sys2Proof.Machine

open Sys2Proof.Claims

/-! ## Multiplication and division -/

/-- The product of two bytes fits a word. -/
theorem ofNat_mul_toNat (x y : Byte) : (BitVec.ofNat 16 (x.toNat * y.toNat)).toNat = x.toNat * y.toNat := by
  have hlt : x.toNat * y.toNat < 256 * 256 := Nat.mul_lt_mul'' x.isLt y.isLt
  rw [BitVec.toNat_ofNat, Nat.mod_eq_of_lt (by omega)]

/-- The division identity of quotient and remainder, as numbers. -/
theorem toNat_udiv_mul_add_umod (x y : Word) : x.toNat = (x / y).toNat * y.toNat + (x % y).toNat := by
  rw [BitVec.toNat_udiv, BitVec.toNat_umod, Nat.div_add_mod']

/-- DIVU A by a divisor that is not zero leaves the quotient in A and a smaller remainder in T. -/
theorem divideT_quotient {s : State} (h : s.a ≠ 0#16) :
    s.t.toNat = (divideT s).a.toNat * s.a.toNat + (divideT s).t.toNat ∧ (divideT s).t.toNat < s.a.toNat := by
  have hpos : 0 < s.a.toNat := Nat.pos_of_ne_zero fun h0 => h (BitVec.eq_of_toNat_eq h0)
  rw [divideT_nonzero h]
  exact ⟨toNat_udiv_mul_add_umod s.t s.a, (BitVec.toNat_umod (x := s.t)).trans_lt (Nat.mod_lt _ hpos)⟩

theorem divideT_ps (s : State) : (divideT s).ps = { s.ps with z := decide (s.a = 0#16) } := by
  rw [divideT_eq, State.withPs_ps]

theorem divideT_nextPC (s : State) (n : Nat) : (divideT s).nextPC n = s.nextPC n := by
  rw [divideT_eq, State.withPs_nextPC, State.withT_nextPC, State.withA_nextPC, State.withFree_nextPC]

/-- Settles O32: a product of bytes fits a word, and a division by a divisor that is not zero is the division of
numbers. -/
theorem multiplicationAndDivision : Obligations.MultiplicationAndDivision := fun s =>
  ⟨⟨_, rfl, advances_of_pc rfl, ofNat_mul_toNat s.al s.tl, rfl, rfl⟩,
    ⟨_, rfl, advances_of_pc (divideT_nextPC s 1), divideT_ps s, divideT_quotient⟩⟩

/-! ## Rotations -/

/-- ROLC A as numbers: the nine bits (C, AL) with C shifted in below. -/
theorem rotateLeft_toNat (x : Byte) (c : Bool) :
    256 * (rotateLeft x c).2.toNat + (rotateLeft x c).1.toNat = 2 * x.toNat + c.toNat := by
  have hc := c.toNat_le
  have hbit : (rotateLeft x c).2 = decide (128 ≤ x.toNat) := BitVec.msb_eq_decide x
  have hcarry := toNat_decide_cases (128 ≤ x.toNat)
  rw [hbit, rotateLeft, BitVec.toNat_ofNat]
  omega

/-- RORC A as numbers: the nine bits (AL, C) with C shifted in above. -/
theorem rotateRight_toNat (x : Byte) (c : Bool) :
    2 * (rotateRight x c).1.toNat + (rotateRight x c).2.toNat = 256 * c.toNat + x.toNat := by
  have hc := c.toNat_le
  have hbit : (rotateRight x c).2 = decide (x.toNat % 2 = 1) := by
    rw [rotateRight, BitVec.getLsbD, Nat.testBit_zero]
  have hcarry := toNat_decide_cases (x.toNat % 2 = 1)
  rw [hbit, rotateRight, BitVec.toNat_ofNat]
  omega

theorem rotateRight_rotateLeft (x : Byte) (c : Bool) : rotateRight (rotateLeft x c).1 (rotateLeft x c).2 = (x, c) := by
  have hl := rotateLeft_toNat x c
  have hr := rotateRight_toNat (rotateLeft x c).1 (rotateLeft x c).2
  have hc := c.toNat_le
  have hc' := (rotateRight (rotateLeft x c).1 (rotateLeft x c).2).2.toNat_le
  exact Prod.ext (BitVec.eq_of_toNat_eq (by dsimp only; omega)) (bool_toNat_inj.1 (by dsimp only; omega))

theorem rotateLeft_rotateRight (x : Byte) (c : Bool) :
    rotateLeft (rotateRight x c).1 (rotateRight x c).2 = (x, c) := by
  have hr := rotateRight_toNat x c
  have hl := rotateLeft_toNat (rotateRight x c).1 (rotateRight x c).2
  have hx := x.isLt
  have hlt := (rotateLeft (rotateRight x c).1 (rotateRight x c).2).1.isLt
  exact Prod.ext (BitVec.eq_of_toNat_eq (by dsimp only; omega)) (bool_toNat_inj.1 (by dsimp only; omega))

/-- What a rotation that leaves the byte and the carry `r` makes of a state. -/
def RotatedTo (r : Byte × Bool) (s t : State) : Prop :=
  t.ah = s.ah ∧ t.t = s.t ∧ NZByte t.al t.ps ∧ t.ps.v = s.ps.v ∧ t.al = r.1 ∧ t.ps.c = r.2

theorem rotates_of_exec {i : Instr} {r : Byte × Bool} {s : State} (hexec : exec i s = finish 1 (setAlRotated r s)) :
    ∃ t, exec i s = .next t ∧ Advances 1 s t ∧ RotatedTo r s t := by
  have hal : ((setAlRotated r s).advance 1).al = r.1 := lo_join _ r.1
  exact ⟨_, hexec, advances_of_pc rfl, hi_join _ r.1, rfl, hal ▸ nzByte_spec r.1 s.ps, rfl, hal, rfl⟩

/-- A second rotation to the byte and the carry of before gives A and C of before. -/
theorem RotatedTo.back {r : Byte × Bool} {s t u : State} (ht : RotatedTo r s t) (hu : RotatedTo (s.al, s.ps.c) t u) :
    u.a = s.a ∧ u.ps.c = s.ps.c := by
  obtain ⟨htah, -⟩ := ht
  obtain ⟨huah, -, -, -, hual, huc⟩ := hu
  exact ⟨word_ext (huah.trans htah) hual, huc⟩

/-- Settles O33: each rotation is an equation of nine-bit numbers, so that the other one inverts it. -/
theorem rotations : Obligations.Rotations := by
  intro s
  constructor
  · obtain ⟨t, hexec, hadv, ht⟩ := rotates_of_exec (i := .rolcA) (r := rotateLeft s.al s.ps.c) (s := s) rfl
    obtain ⟨u, hexecU, -, hu⟩ := rotates_of_exec (i := .rorcA) (r := rotateRight t.al t.ps.c) (s := t) rfl
    have ⟨hah, htt, hnz, hv, hal, hc⟩ := ht
    rw [hal, hc, rotateRight_rotateLeft] at hu
    exact ⟨t, hexec, hadv, hah, htt, hnz, hv, by rw [hal, hc, rotateLeft_toNat], u, hexecU, ht.back hu⟩
  · obtain ⟨t, hexec, hadv, ht⟩ := rotates_of_exec (i := .rorcA) (r := rotateRight s.al s.ps.c) (s := s) rfl
    obtain ⟨u, hexecU, -, hu⟩ := rotates_of_exec (i := .rolcA) (r := rotateLeft t.al t.ps.c) (s := t) rfl
    have ⟨hah, htt, hnz, hv, hal, hc⟩ := ht
    rw [hal, hc, rotateLeft_rotateRight] at hu
    exact ⟨t, hexec, hadv, hah, htt, hnz, hv, by rw [hal, hc, rotateRight_toNat], u, hexecU, ht.back hu⟩

end Sys2Proof.Machine

/-! Decimal arithmetic: DAA and DAS by their tables, and what they make of the sum and the difference of two packed
decimal bytes (41_arithmetic R267 to R270). -/

namespace Sys2Proof.Machine

open Sys2Proof.Claims

/-! ## DAA -/

/-- A correction of the table is a byte below 128, so that it is the same number signed. -/
theorem daaRows_k_lt : ∀ r ∈ daaRows, r.k < 128 := by decide

/-- On a row of Table 6.26-1 the model takes the row's correction and carry. -/
theorem daaCorrection_of_covers {r : DaaRow} {s : State} (hr : r ∈ daaRows) (hcov : r.covers s) :
    daaCorrection s.ps.c s.ps.h s.al = some (BitVec.ofNat 8 r.k, r.c') := by
  obtain ⟨hc, hh, hu0, hu1, hl0, hl1⟩ := hcov
  rw [daaCorrection, hc, hh]
  simp only [daaRows, List.mem_cons, List.not_mem_nil, or_false] at hr
  rcases hr with rfl | rfl | rfl | rfl | rfl | rfl | rfl | rfl | rfl <;> dsimp only [daaRow] at hu0 hu1 hl0 hl1 ⊢
  · rw [if_pos ⟨hu1, hl1⟩]
  · rw [if_neg (by omega), if_pos ⟨hu1, hl0⟩]
  · rw [if_pos ⟨hu1, hl1⟩]
  · rw [if_neg (by omega), if_neg (by omega), if_pos ⟨hu0, hl1⟩]
  · rw [if_neg (by omega), if_neg (by omega), if_neg (by omega), if_pos ⟨hu0, hl0⟩]
  · rw [if_neg (by omega), if_pos ⟨hu0, hl1⟩]
  · rw [if_pos ⟨hu1, hl1⟩]
  · rw [if_neg (by omega), if_pos ⟨hu1, hl0⟩]
  · rw [if_pos ⟨hu1, hl1⟩]

theorem ofNat8_toInt {k : Nat} (hk : k < 128) : (BitVec.ofNat 8 k).toInt = k := by
  have hnat : (BitVec.ofNat 8 k).toNat = k := by rw [BitVec.toNat_ofNat, Nat.mod_eq_of_lt (by omega)]
  rw [BitVec.toInt_eq_toNat_of_lt (by omega), hnat]

/-- AL and the flags N, Z, V and C that DAA makes on a row of the table. -/
theorem decimalAfterAdd_row {r : DaaRow} {s : State} (hr : r ∈ daaRows) (hcov : r.covers s) :
    (decimalAfterAdd s).al.toNat = (s.al.toNat + r.k) % 256 ∧ (decimalAfterAdd s).ps.c = r.c' ∧
      NZByte (decimalAfterAdd s).al (decimalAfterAdd s).ps ∧
      (decimalAfterAdd s).ps.v = decide (127 < s.al.toInt + (r.k : Int)) := by
  have hk := daaRows_k_lt r hr
  rw [decimalAfterAdd_table (daaCorrection_of_covers hr hcov), State.withPs_al, State.withAl_al]
  refine ⟨?_, rfl, nzByte_spec _ s.ps, ?_⟩
  · rw [BitVec.toNat_add, BitVec.toNat_ofNat, Nat.add_mod_mod]
  · rw [← ofNat8_toInt hk]
    rfl

/-- Settles O34: on a row the model looks up that row, and on the rest DAA is free in AL, N, Z, V and C alone. -/
theorem decimalAdjustAfterAddition : Obligations.DecimalAdjustAfterAddition := by
  intro s
  have hkeeps := decimalAfterAdd_eq s
  refine ⟨_, rfl, advances_of_pc ?_, ?_, ?_, ?_, fun r hr hcov => decimalAfterAdd_row hr hcov⟩
  · rw [State.advance_pc, hkeeps]
    rfl
  · rw [State.advance_ah, hkeeps, State.withPs_ah, State.withAl_ah, State.withFree_ah]
  · rw [State.advance_t, hkeeps]
    rfl
  · rw [State.advance_ps, hkeeps]
    rfl

/-! ## DAS -/

theorem dasCorrection_toNat (c h : Bool) : (dasCorrection c h).toNat = 96 * c.toNat + 6 * h.toNat := by
  cases c <;> cases h <;> rfl

theorem dasCorrection_toInt (c h : Bool) : (dasCorrection c h).toInt = 96 * c.toNat + 6 * h.toNat := by
  cases c <;> cases h <;> rfl

/-- Settles O35: the correction of Table 6.27-1 is 60H where C is set and 06H where H is, together. -/
theorem decimalAdjustAfterSubtraction : Obligations.DecimalAdjustAfterSubtraction := by
  intro s
  have hal : (decimalAfterSub s).al = s.al - dasCorrection s.ps.c s.ps.h := lo_join _ _
  refine ⟨_, rfl, advances_of_pc rfl, hi_join _ _, rfl, rfl, rfl, ?_, ?_, ?_⟩
  · rw [State.advance_al, hal]
    exact nzByte_spec _ s.ps
  · have hk := dasCorrection_toNat s.ps.c s.ps.h
    rw [State.advance_al, hal, BitVec.toNat_sub]
    omega
  · show decide (s.al.toInt - (dasCorrection s.ps.c s.ps.h).toInt < -128) = _
    rw [dasCorrection_toInt, decide_eq_decide]
    omega

/-! ## Packed decimal sums and differences -/

/-- The state holds the binary sum of two bytes and a carry, as ADDC leaves it. -/
def HoldsSum (x y : Byte) (c : Bool) (t : State) : Prop :=
  t.al.toNat = (x.toNat + y.toNat + c.toNat) % 256 ∧
    t.ps.c = decide (256 ≤ x.toNat + y.toNat + c.toNat) ∧
    t.ps.h = decide (16 ≤ x.toNat % 16 + y.toNat % 16 + c.toNat)

theorem DaaRow.covers_mk_iff {c h c' : Bool} {u0 u1 l0 l1 k : Nat} {s : State} :
    (⟨c, u0, u1, h, l0, l1, k, c'⟩ : DaaRow).covers s ↔
      s.ps.c = c ∧ s.ps.h = h ∧ u0 ≤ s.al.toNat / 16 ∧ s.al.toNat / 16 ≤ u1 ∧ l0 ≤ s.al.toNat % 16 ∧
        s.al.toNat % 16 ≤ l1 := Iff.rfl

/-- The sum of two packed decimal bytes is on a row of Table 6.26-1: C and H stand for the sums of the
two digits at 16 and above, and where they are clear the digits left below or above 9 choose among the nine rows. -/
theorem exists_covering_row {x y : Byte} {c : Bool} {t : State} (hx : IsBcd x) (hy : IsBcd y)
    (ht : HoldsSum x y c t) : ∃ r ∈ daaRows, r.covers t := by
  obtain ⟨hxu, hxl⟩ := hx
  obtain ⟨hyu, hyl⟩ := hy
  obtain ⟨hal, hc, hh⟩ := ht
  have hcarry := c.toNat_le
  by_cases hhalf : 16 ≤ x.toNat % 16 + y.toNat % 16 + c.toNat
  · rw [decide_eq_true hhalf] at hh
    by_cases hfull : 256 ≤ x.toNat + y.toNat + c.toNat
    · rw [decide_eq_true hfull] at hc
      exact ⟨⟨true, 0, 3, true, 0, 3, 0x66, true⟩, by simp [daaRows], DaaRow.covers_mk_iff.2 ⟨hc, hh, by omega⟩⟩
    · rw [decide_eq_false hfull] at hc
      by_cases hupper : t.al.toNat / 16 ≤ 9
      · exact ⟨⟨false, 0, 9, true, 0, 3, 0x06, false⟩, by simp [daaRows], DaaRow.covers_mk_iff.2 ⟨hc, hh, by omega⟩⟩
      · exact ⟨⟨false, 10, 15, true, 0, 3, 0x66, true⟩, by simp [daaRows], DaaRow.covers_mk_iff.2 ⟨hc, hh, by omega⟩⟩
  · rw [decide_eq_false hhalf] at hh
    by_cases hfull : 256 ≤ x.toNat + y.toNat + c.toNat
    · rw [decide_eq_true hfull] at hc
      by_cases hlower : t.al.toNat % 16 ≤ 9
      · exact ⟨⟨true, 0, 2, false, 0, 9, 0x60, true⟩, by simp [daaRows], DaaRow.covers_mk_iff.2 ⟨hc, hh, by omega⟩⟩
      · exact ⟨⟨true, 0, 2, false, 10, 15, 0x66, true⟩, by simp [daaRows], DaaRow.covers_mk_iff.2 ⟨hc, hh, by omega⟩⟩
    · rw [decide_eq_false hfull] at hc
      by_cases hlower : t.al.toNat % 16 ≤ 9
      · by_cases hupper : t.al.toNat / 16 ≤ 9
        · exact ⟨⟨false, 0, 9, false, 0, 9, 0x00, false⟩, by simp [daaRows], DaaRow.covers_mk_iff.2 ⟨hc, hh, by omega⟩⟩
        · exact ⟨⟨false, 10, 15, false, 0, 9, 0x60, true⟩, by simp [daaRows], DaaRow.covers_mk_iff.2 ⟨hc, hh, by omega⟩⟩
      · by_cases hupper : t.al.toNat / 16 ≤ 8
        · exact ⟨⟨false, 0, 8, false, 10, 15, 0x06, false⟩, by simp [daaRows],
            DaaRow.covers_mk_iff.2 ⟨hc, hh, by omega⟩⟩
        · exact ⟨⟨false, 9, 15, false, 10, 15, 0x66, true⟩, by simp [daaRows],
            DaaRow.covers_mk_iff.2 ⟨hc, hh, by omega⟩⟩

/-- On the row that covers the sum of two packed decimal bytes, the correction gives the decimal sum. -/
theorem row_corrects_sum {x y z : Byte} {c : Bool} {t : State} {r : DaaRow} (hx : IsBcd x) (hy : IsBcd y)
    (ht : HoldsSum x y c t) (hr : r ∈ daaRows) (hcov : r.covers t) (hz : z.toNat = (t.al.toNat + r.k) % 256) :
    IsBcd z ∧ fromBcd z + 100 * r.c'.toNat = fromBcd x + fromBcd y + c.toNat := by
  obtain ⟨hxu, hxl⟩ := hx
  obtain ⟨hyu, hyl⟩ := hy
  obtain ⟨hal, hc, hh⟩ := ht
  have hcarry := c.toNat_le
  simp only [daaRows, List.mem_cons, List.not_mem_nil, or_false] at hr
  simp only [IsBcd, fromBcd]
  rcases hr with rfl | rfl | rfl | rfl | rfl | rfl | rfl | rfl | rfl <;>
    simp only [DaaRow.covers_mk_iff, hc, hh, decide_eq_true_eq, decide_eq_false_iff_not] at hcov <;>
    dsimp only [Bool.toNat_true, Bool.toNat_false] at hz ⊢ <;>
    omega

/-- Settles O36: the binary sum is on one row of the table, whose correction gives the decimal sum. -/
theorem decimalAddition : Obligations.DecimalAddition := by
  intro y s hx hy
  obtain ⟨t, hadd, -, -, hal, -, hc, hh, -⟩ : AddsToAl (.addcAImm y) 2 y s := addsToAl_of_exec rfl rfl
  have ht : HoldsSum s.al y s.ps.c t := ⟨hal, hc, hh⟩
  obtain ⟨u, hdaa, -, -, -, -, hrows⟩ := decimalAdjustAfterAddition t
  obtain ⟨r, hr, hcov⟩ := exists_covering_row hx hy ht
  obtain ⟨hual, huc, -, -⟩ := hrows r hr hcov
  obtain ⟨hbcd, hsum⟩ := row_corrects_sum hx hy ht hr hcov hual
  exact ⟨t, u, hadd, hdaa, hbcd, by rw [huc, hsum]⟩

/-- The difference of two packed decimal bytes less a borrow, corrected by 60H where it borrows a hundred and by 06H
where its lower digit borrows a ten, is the decimal difference. -/
theorem correction_of_difference {x y z d : Byte} {c : Bool} (hx : IsBcd x) (hy : IsBcd y)
    (hd : (d.toNat : Int) = ((x.toNat : Int) - y.toNat - c.toNat) % 256)
    (hz : (z.toNat : Int) = ((d.toNat : Int) - 96 * (decide (x.toNat < y.toNat + c.toNat)).toNat -
      6 * (decide (x.toNat % 16 < y.toNat % 16 + c.toNat)).toNat) % 256) :
    IsBcd z ∧ fromBcd z + fromBcd y + c.toNat = fromBcd x + 100 * (decide (x.toNat < y.toNat + c.toNat)).toNat := by
  obtain ⟨hxu, hxl⟩ := hx
  obtain ⟨hyu, hyl⟩ := hy
  have hcarry := c.toNat_le
  have hhundred := toNat_decide_cases (x.toNat < y.toNat + c.toNat)
  have hten := toNat_decide_cases (x.toNat % 16 < y.toNat % 16 + c.toNat)
  simp only [IsBcd, fromBcd]
  omega

/-- Settles O37: the borrows of the binary difference are those of the digits, and DAS corrects by them. -/
theorem decimalSubtraction : Obligations.DecimalSubtraction := by
  intro y s hx hy
  obtain ⟨t, hsub, -, -, hal, -, hc, hh, -⟩ : SubtractsToAl (.subcAImm y) 2 s.al y s := subtractsToAl_of_exec rfl rfl
  obtain ⟨u, hdas, -, -, -, -, huc, -, hual, -⟩ := decimalAdjustAfterSubtraction t
  rw [hc, hh] at hual
  obtain ⟨hbcd, hdiff⟩ := correction_of_difference hx hy hal hual
  exact ⟨t, u, hsub, hdas, hbcd, by rw [hdiff, huc, hc]⟩

end Sys2Proof.Machine

/-! The conditional branches after a comparison (42_branch R281, R282). -/

namespace Sys2Proof.Machine

open Sys2Proof.Claims

/-! ## Conditional branches -/

theorem nextPC_toNat (n : Nat) (s : State) : (s.nextPC n).toNat = (s.pc.toNat + n) % 65536 :=
  advances_of_pc (t := s.advance n) rfl

/-- R281: the target of a relative branch, as a number. -/
theorem relTarget_toNat (n : Nat) (rel : Byte) (s : State) :
    ((relTarget n rel s).toNat : Int) = (s.pc.toNat + n + rel.toInt) % 65536 := by
  rw [relTarget, add_sext_toNat, nextPC_toNat]
  omega

theorem branches_of_exec {i : Instr} {n : Nat} {taken : Bool} {rel : Byte} {s : State}
    (hexec : exec i s = branchIf taken n rel s) : Branches i n taken rel s := by
  refine ⟨_, hexec, rfl, ?_⟩
  rw [State.withPc_pc]
  cases taken with
  | true => exact relTarget_toNat n rel s
  | false => exact (congrArg Int.ofNat (nextPC_toNat n s)).trans (by simp)

/-- Settles O40: Z, C and V xor N of the comparison are the orders of AL and d8 that the branches test. -/
theorem branchesAfterComparison : Obligations.BranchesAfterComparison := by
  intro d8 rel s
  obtain ⟨t, hcmp, -, -, -, hz, hc, hvn, -⟩ : ComparesBytes (.cmpAImm d8) 2 s.al d8 s.bus s :=
    comparesBytes_of_exec rfl rfl
  have hnz : decide (s.al ≠ d8) = !t.ps.z := by rw [hz, decide_not]
  have hnc : decide (d8.toNat ≤ s.al.toNat) = !t.ps.c := by rw [hc, ← decide_not, decide_eq_decide, not_lt]
  have hge : decide (d8.toInt ≤ s.al.toInt) = !(t.ps.v ^^ t.ps.n) := by
    rw [hvn, ← decide_not, decide_eq_decide, not_lt]
  rw [← hz, ← hc, ← hvn, hnz, hnc, hge]
  exact ⟨t, hcmp, branches_of_exec rfl, branches_of_exec rfl, branches_of_exec rfl, branches_of_exec rfl,
    branches_of_exec rfl, branches_of_exec rfl⟩

end Sys2Proof.Machine

/-! The branch instructions: the target of a relative branch, the conditional branches and those on a bit, and the jumps
and calls (42_branch R281 to R298). -/

namespace Sys2Proof.Machine

open Sys2Proof.Claims

/-! ## Relative branches -/

/-- A byte of 80H or more is negative: its extension has FFH above it (00_scope R13). -/
theorem sext_toNat (v : Byte) : (sext v).toNat = if v.toNat < 0x80 then v.toNat else v.toNat + 0xFF00 := by
  have hsame := sext_toInt v
  have hv := v.isLt
  rw [BitVec.toInt_eq_toNat_cond, BitVec.toInt_eq_toNat_cond] at hsame
  split at hsame <;> split at hsame <;> split <;> omega

/-- An offset that takes back the length of the instruction branches to the instruction itself. -/
theorem relTarget_self {n : Nat} {rel : Byte} (h : BitVec.ofNat 16 n + sext rel = 0#16) (s : State) :
    relTarget n rel s = s.pc := by
  rw [relTarget, State.nextPC, BitVec.add_assoc, h, BitVec.add_zero]

/-- The offset 00H branches to the next instruction. -/
theorem relTarget_zero (n : Nat) (s : State) : relTarget n 0x00#8 s = s.nextPC n := by
  have hzero : sext 0x00#8 = 0#16 := rfl
  rw [relTarget, hzero, BitVec.add_zero]

/-- Settles O38: the sign extension of the offset, the sum with it modulo 65536, and the three offsets of note. -/
theorem relativeTargets : Obligations.RelativeTargets := fun rel s =>
  ⟨sext_toNat rel, relTarget_toNat 2 rel s, relTarget_toNat 3 rel s, relTarget_self (by decide) s,
    relTarget_self (by decide) s, relTarget_zero 2 s⟩

/-- BGE tests V xor N = 0, which says that V and N are equal (42_branch R290). -/
theorem exec_bge (rel : Byte) (s : State) : exec (.bge rel) s = branchIf (s.ps.v == s.ps.n) 2 rel s := by
  rw [← Bool.not_not (s.ps.v == s.ps.n)]
  rfl

/-- Settles O39: each of the eight is `branchIf` on its own test of the flags. -/
theorem conditionalBranches : Obligations.ConditionalBranches := fun rel s =>
  ⟨branches_of_exec rfl, branches_of_exec rfl, branches_of_exec rfl, branches_of_exec rfl, branches_of_exec rfl,
    branches_of_exec rfl, branches_of_exec (exec_bge rel s), branches_of_exec rfl⟩

/-- BBC and BBS read their byte once, write Z from its bit, and then branch as the others do (42_branch R291). -/
theorem branchOnBit_eq (want : Bool) (dir : Byte) (b : Nat) (rel : Byte) (s : State) :
    branchOnBit want dir b rel s =
      branchIf ((s.byteAt (dirAddr dir s)).getLsbD b == want) 3 rel
        ((readByte false (dirAddr dir s) s).2.withPs
          { s.ps with z := !(s.byteAt (dirAddr dir s)).getLsbD b }) := rfl

/-- The read and the write of Z leave PC, so that both targets are those of `s`. -/
theorem branchesOnBit_of_exec {i : Instr} {want : Bool} {dir : Byte} {b : Nat} {rel : Byte} {s : State}
    (hexec : exec i s = branchOnBit want dir b rel s) : BranchesOnBit i (dirAddr dir s) b want rel s := by
  refine ⟨_, hexec.trans (branchOnBit_eq ..), rfl, readByte_mem .., rfl, ?_⟩
  rw [State.withPc_pc]
  by_cases hbit : (s.byteAt (dirAddr dir s)).getLsbD b = want
  · rw [if_pos hbit, if_pos (beq_iff_eq.2 hbit), relTarget_toNat, State.withPs_pc, readByte_pc]
    rfl
  · rw [if_neg hbit, if_neg (mt beq_iff_eq.1 hbit), nextPC_toNat, State.withPs_pc, readByte_pc]
    exact Int.natCast_emod ..

/-- Settles O41: BBC and BBS are one branch on a bit, for the two values of the bit. -/
theorem bitBranches : Obligations.BitBranches := fun _ _ _ _ _ =>
  ⟨branchesOnBit_of_exec rfl, branchesOnBit_of_exec rfl⟩

/-! ## Jumps and calls -/

/-- Settles O42: the three jumps write PC, XCHW A,PC also A, and nothing else. -/
theorem jumps : Obligations.Jumps := fun _ s =>
  ⟨⟨_, rfl, rfl⟩, ⟨_, rfl, rfl⟩, _, rfl, rfl, nextPC_toNat 1 s, rfl⟩

/-- CALLV goes to the word of its table and pushes the next address, in the state that the read of the table leaves
(42_branch R297). -/
theorem exec_callv (k : Nat) (s : State) :
    exec (.callv k) s =
      .next ((push16 (s.nextPC 1) (readWord (callvAddr k) s).2).withPc (s.wordAt (callvAddr k))) := rfl

/-- An instruction whose effect is one push after reads, and a value for PC. -/
theorem pushes_after_reads {i : Instr} {w x : Word} {s u : State} (hu : u = s.withBus u.bus)
    (hexec : exec i s = .next ((push16 w u).withPc x)) : Pushes i w s ((push16 w u).withPc x) := by
  have hsp : u.sp = s.sp := by rw [hu, State.withBus_sp]
  have hinside (a : Word) : u.storesInside a = s.storesInside a := by rw [hu, State.withBus_storesInside]
  refine ⟨hexec, ?_, fun h => ?_, fun h => ?_⟩
  · rw [State.withPc_sp, push16_sp, hsp]
  · rw [← hsp] at h ⊢
    rw [State.withPc_byteAt, byteAt_push16_hi w ((hinside _).trans h), hi_toNat]
  · rw [← hsp] at h ⊢
    rw [State.withPc_byteAt, byteAt_push16_lo w ((hinside _).trans h), lo_toNat]

/-- Settles O43: both calls are a push of the next address and a write of PC; CALLV reads its vector before them. -/
theorem calls : Obligations.Calls := by
  refine fun s => ⟨fun ext => ?_, fun k _ => ?_⟩
  · exact ⟨_, pushes_of_exec (w := s.nextPC 3) (x := ext) rfl, rfl, push16_bus (s.nextPC 3) s⟩
  · refine ⟨_, pushes_after_reads (readWord_state (callvAddr k) s) (exec_callv k s), rfl, ?_⟩
    rw [State.withPc_bus, push16_bus, readWord_sp, sent_congr (readWord_product ..), sent_congr (readWord_product ..)]
    rfl

end Sys2Proof.Machine

/-! Interrupt entry as two pushes and RETI as two pops: what RETI makes of any frame, and that it undoes interrupt entry
(42_branch R300, 60_exceptions R350 to R357). -/

namespace Sys2Proof.Machine

/-! ## RETI -/

/-- A word that the machine answers itself is read without a change. -/
theorem readWord_eq_wordAt {a : Word} {s : State} (h : s.readsInside a = true) (h1 : s.readsInside (a + 1) = true) :
    readWord a s = (s.wordAt a, s) := by
  rw [wordAt_inside h h1, readWord_inside h h1]

/-- RETI from a stack that the machine answers itself: PS and PC are the two words at SP, and SP is past them. -/
theorem returnFromInterrupt_inside {s : State} (h0 : s.readsInside s.sp = true) (h1 : s.readsInside (s.sp + 1) = true)
    (h2 : s.readsInside (s.sp + 2) = true) (h3 : s.readsInside (s.sp + 2 + 1) = true) :
    returnFromInterrupt s =
      ((s.withPs (Status.ofWord (s.wordAt s.sp))).withPc (s.wordAt (s.sp + 2))).withSp (s.sp + 4) := by
  simp only [returnFromInterrupt, readWord_eq_wordAt h0 h1, readWord_eq_wordAt h2 h3]

theorem add_two_add_one (a : Word) : a + 2 + 1 = a + 3 := BitVec.add_assoc a 2 1

theorem exec_reti (s : State) : exec .reti s = .next (returnFromInterrupt s) := rfl

/-- Settles O46: the two words popped, each by its two bytes. (`returnFromInterrupt` is the name of the model's
function.) -/
theorem returnFromInterrupt_holds : Obligations.ReturnFromInterrupt := by
  intro s h0 h1 h2 h3
  rw [← add_two_add_one] at h3
  refine ⟨_, exec_reti s, ?_⟩
  rw [returnFromInterrupt_inside h0 h1 h2 h3, ← add_two_add_one]
  refine ⟨?_, ?_, BitVec.toNat_add s.sp 4, rfl, rfl, rfl, rfl, rfl, rfl⟩
  · rw [State.withSp_ps, State.withPc_ps, State.withPs_ps, Status.toWord_ofWord, wordAt_inside h0 h1, join_toNat]
  · rw [State.withSp_pc, State.withPc_pc, wordAt_inside h2 h3, join_toNat]

/-! ## What a push leaves -/

@[simp] theorem push16_storesInside (w : Word) (s : State) (b : Word) :
    (push16 w s).storesInside b = s.storesInside b :=
  storesInside_congr (push16_product ..) b

theorem byteAt_push16_other {w b : Word} {s : State} (hb : s.readsInside b = true) (h1 : b ≠ s.sp - 1)
    (h2 : b ≠ s.sp - 2) : (push16 w s).byteAt b = s.byteAt b := by
  rw [push16_eq, State.withSp_byteAt, byteAt_writeByte_other ((writeByte_readsInside ..).trans hb) h2,
    byteAt_writeByte_other hb h1]

/-- A word pushed is found at the new SP. -/
theorem wordAt_push16 {s : State} (w : Word) (h1 : s.storesInside (s.sp - 1) = true)
    (h2 : s.storesInside (s.sp - 2) = true) : (push16 w s).wordAt (s.sp - 2) = w :=
  wordAt_withPc_push16 w (push16 w s).pc h1 h2

/-- A word pushed below another leaves the other, at 0078H too: the second push writes two other addresses. -/
theorem wordAt_push16_push16 {s : State} (v w : Word) (h1 : s.storesInside (s.sp - 1) = true)
    (h2 : s.storesInside (s.sp - 2) = true) : (push16 w (push16 v s)).wordAt (s.sp - 2) = v := by
  have hhi : (push16 v s).readsInside (s.sp - 2) = true :=
    (push16_readsInside ..).trans (readsInside_of_storesInside h2)
  have hlo : (push16 v s).readsInside (s.sp - 2 + 1) = true := by
    rw [sub_two_add_one, push16_readsInside, readsInside_of_storesInside h1]
  have hdistinct : s.sp - 2 ≠ s.sp - 2 - 1 ∧ s.sp - 2 ≠ s.sp - 2 - 2 ∧ s.sp - 2 + 1 ≠ s.sp - 2 - 1 ∧
      s.sp - 2 + 1 ≠ s.sp - 2 - 2 := by
    bv_omega
  obtain ⟨hhi1, hhi2, hlo1, hlo2⟩ := hdistinct
  rw [wordAt_inside ((push16_readsInside ..).trans hhi) ((push16_readsInside ..).trans hlo),
    byteAt_push16_other hhi hhi1 hhi2, byteAt_push16_other hlo hlo1 hlo2, ← wordAt_inside hhi hlo,
    wordAt_push16 v h1 h2]

/-! ## Interrupt entry -/

theorem sub_four_add_one (a : Word) : a - 4 + 1 = a - 3 := by bv_omega

theorem sub_four_add_two (a : Word) : a - 4 + 2 = a - 2 := by bv_omega

theorem sub_four_add_four (a : Word) : a - 4 + 4 = a := by bv_omega

theorem sub_two_sub_one (a : Word) : a - 2 - 1 = a - 3 := by bv_omega

theorem sub_two_sub_two (a : Word) : a - 2 - 2 = a - 4 := by bv_omega

/-- The state after the accesses of interrupt entry: the vector read, then the return address and PS pushed
(60_exceptions R350, R353). -/
def pushFrame (r : Request) (s : State) : State :=
  push16 s.ps.toWord (push16 s.pc (readWord (irqVector r.number) s).2)

/-- A byte write and a write of SP commute. -/
theorem writeByte_withSp (a : Word) (v : Byte) (x : Word) (s : State) :
    writeByte a v (s.withSp x) = (writeByte a v s).withSp x := by
  unfold writeByte
  simp only [State.withSp_kindAt]
  split
  · rfl
  · split <;> rfl

/-- Interrupt entry is the two pushes, and then writes of IL and PC. -/
theorem enterInterrupt_eq (r : Request) (s : State) :
    enterInterrupt r s =
      ((pushFrame r s).withPs { (pushFrame r s).ps with il := r.level }).withPc (s.wordAt (irqVector r.number)) := by
  simp only [pushFrame, push16_eq, writeByte_withSp, State.withSp_sp, readWord_sp, sub_two_sub_one,
    sub_two_sub_two, Status.toWord, hi_join, lo_join]
  rfl

@[simp] theorem enterInterrupt_readsInside (r : Request) (s : State) (b : Word) :
    (enterInterrupt r s).readsInside b = s.readsInside b :=
  have ⟨_, _, _, _, hproduct, _, _⟩ := enterInterrupt_regs r s
  readsInside_congr hproduct b

/-- A write of IL changes no byte: 0078H shows RP and DP alone (20_memory R79). -/
theorem byteAt_withIl (x : BitVec 2) (s : State) (b : Word) :
    (s.withPs { s.ps with il := x }).byteAt b = s.byteAt b :=
  byteAt_congr (s := s) (t := s.withPs { s.ps with il := x }) rfl rfl rfl rfl b

theorem byteAt_enterInterrupt (r : Request) (s : State) (b : Word) :
    (enterInterrupt r s).byteAt b = (pushFrame r s).byteAt b := by
  rw [enterInterrupt_eq, State.withPc_byteAt, byteAt_withIl]

theorem wordAt_enterInterrupt (r : Request) {a : Word} {s : State} (h : s.readsInside a = true)
    (h1 : s.readsInside (a + 1) = true) : (enterInterrupt r s).wordAt a = (pushFrame r s).wordAt a := by
  have hframe (b : Word) : (pushFrame r s).readsInside b = s.readsInside b := by
    rw [pushFrame, push16_readsInside, push16_readsInside, readWord_readsInside]
  rw [wordAt_inside ((enterInterrupt_readsInside ..).trans h) ((enterInterrupt_readsInside ..).trans h1),
    wordAt_inside ((hframe _).trans h) ((hframe _).trans h1), byteAt_enterInterrupt, byteAt_enterInterrupt]

theorem enterInterrupt_sp (r : Request) (s : State) : (enterInterrupt r s).sp = s.sp - 4 := rfl

/-! ## The frame that interrupt entry leaves -/

theorem forall_entryFrame {P : Word → Prop} {s : State} :
    (∀ a ∈ entryFrame s, P a) ↔ P (s.sp - 1) ∧ P (s.sp - 2) ∧ P (s.sp - 3) ∧ P (s.sp - 4) := by
  simp [entryFrame]

section

variable {s : State} (hkept : ∀ a ∈ entryFrame s, s.storesInside a = true)

include hkept

/-- The frame of interrupt entry holds PS at the new SP (60_exceptions R353). -/
theorem wordAt_enterInterrupt_ps (r : Request) : (enterInterrupt r s).wordAt (s.sp - 4) = s.ps.toWord := by
  obtain ⟨-, -, h3, h4⟩ := forall_entryFrame.1 hkept
  have hinside : s.readsInside (s.sp - 4 + 1) = true := by rw [sub_four_add_one, readsInside_of_storesInside h3]
  have hpushed := wordAt_push16 (s := push16 s.pc (readWord (irqVector r.number) s).2) s.ps.toWord
  simp only [push16_storesInside, readWord_storesInside, push16_sp, readWord_sp, sub_two_sub_one, sub_two_sub_two]
    at hpushed
  rw [wordAt_enterInterrupt r (readsInside_of_storesInside h4) hinside, pushFrame, hpushed h3 h4]

/-- The frame of interrupt entry holds the return address above PS (60_exceptions R353). -/
theorem wordAt_enterInterrupt_pc (r : Request) : (enterInterrupt r s).wordAt (s.sp - 2) = s.pc := by
  obtain ⟨h1, h2, -, -⟩ := forall_entryFrame.1 hkept
  have hinside : s.readsInside (s.sp - 2 + 1) = true := by rw [sub_two_add_one, readsInside_of_storesInside h1]
  have hpushed := wordAt_push16_push16 (s := (readWord (irqVector r.number) s).2) s.pc s.ps.toWord
  simp only [readWord_storesInside, readWord_sp] at hpushed
  rw [wordAt_enterInterrupt r (readsInside_of_storesInside h2) hinside, pushFrame, hpushed h1 h2]

end

/-- Interrupt entry leaves every byte outside its frame. -/
theorem byteAt_enterInterrupt_other (r : Request) {b : Word} {s : State} (hb : s.readsInside b = true)
    (hframe : b ∉ entryFrame s) : (enterInterrupt r s).byteAt b = s.byteAt b := by
  have hvector : (readWord (irqVector r.number) s).2.readsInside b = true := (readWord_readsInside ..).trans hb
  have hsp : (readWord (irqVector r.number) s).2.sp = s.sp := readWord_sp ..
  simp only [entryFrame, List.mem_cons, List.not_mem_nil, or_false, not_or] at hframe
  obtain ⟨h1, h2, h3, h4⟩ := hframe
  calc (enterInterrupt r s).byteAt b
      = (push16 s.pc (readWord (irqVector r.number) s).2).byteAt b := by
        rw [byteAt_enterInterrupt, pushFrame, byteAt_push16_other ((push16_readsInside ..).trans hvector)]
        · rwa [push16_sp, hsp, sub_two_sub_one]
        · rwa [push16_sp, hsp, sub_two_sub_two]
    _ = (readWord (irqVector r.number) s).2.byteAt b := by
        rw [byteAt_push16_other hvector (by rwa [hsp]) (by rwa [hsp])]
    _ = s.byteAt b := byteAt_inside_congr hb (readWord_product ..) (readWord_mem ..) fun _ => by rw [readWord_ps]

/-! ## RETI after interrupt entry -/

/-- RETI in the state that interrupt entry leaves takes PS, PC and SP of the interrupted program from the frame. -/
theorem returnFromInterrupt_enterInterrupt (r : Request) {s : State}
    (hkept : ∀ a ∈ entryFrame s, s.storesInside a = true) :
    returnFromInterrupt (enterInterrupt r s) = (((enterInterrupt r s).withPs s.ps).withPc s.pc).withSp s.sp := by
  obtain ⟨h1, h2, h3, h4⟩ := forall_entryFrame.1 fun a ha => readsInside_of_storesInside (hkept a ha)
  rw [returnFromInterrupt_inside] <;>
    simp only [enterInterrupt_sp, enterInterrupt_readsInside, sub_four_add_one, sub_four_add_two, sub_four_add_four,
      sub_two_add_one, wordAt_enterInterrupt_ps hkept, wordAt_enterInterrupt_pc hkept, Status.ofWord_toWord, h1, h2, h3,
      h4]

/-- PS, PC and SP loaded from `s` into a state that reads a byte as `s` does: it still does, at 0078H through PS. -/
theorem byteAt_restored {s e : State} {b : Word} (hb : e.readsInside b = true) (hsame : e.byteAt b = s.byteAt b) :
    (((e.withPs s.ps).withPc s.pc).withSp s.sp).byteAt b = s.byteAt b := by
  rw [State.withSp_byteAt, State.withPc_byteAt, ← hsame]
  refine byteAt_inside_congr hb rfl rfl fun hmirror => ?_
  rw [hmirror, byteAt_mirror, byteAt_mirror] at hsame
  exact hsame.symm

/-- Settles O58: RETI loads the words that entry pushed, and neither touches another register, or a byte outside the
frame. -/
theorem entryThenReturn : Obligations.EntryThenReturn := by
  intro r s hkept
  obtain ⟨ha, ht, hix, hep, -⟩ := enterInterrupt_regs r s
  refine ⟨_, exec_reti _, ?_⟩
  rw [returnFromInterrupt_enterInterrupt r hkept]
  refine ⟨?_, ?_, State.withSp_sp .., ?_, ?_, ?_, ?_, fun b hframe hb => ?_⟩
  · rw [State.withSp_pc, State.withPc_pc]
  · rw [State.withSp_ps, State.withPc_ps, State.withPs_ps]
  · rw [State.withSp_a, State.withPc_a, State.withPs_a, ha]
  · rw [State.withSp_t, State.withPc_t, State.withPs_t, ht]
  · rw [State.withSp_ix, State.withPc_ix, State.withPs_ix, hix]
  · rw [State.withSp_ep, State.withPc_ep, State.withPs_ep, hep]
  · exact byteAt_restored ((enterInterrupt_readsInside ..).trans hb) (byteAt_enterInterrupt_other r hb hframe)

end Sys2Proof.Machine

/-! The interrupt level IL: the instructions that write it, what an instruction, interrupt entry and reset leave in it,
and the events of a step that change it; and the instructions that name one flag (43_other R320, R326 to R331). -/

namespace Sys2Proof.Machine

/-! ## IL under an instruction -/

/-- RETI and MOVW PS,A are the instructions that write IL (43_other R331). -/
theorem il_mem_writtenFields_iff (i : Instr) : .il ∈ writtenFields i ↔ i = .reti ∨ i = .movwPsA := by
  cases i with
  | reti => exact iff_of_true (by decide) (.inl rfl)
  | movwPsA => exact iff_of_true (by decide) (.inr rfl)
  | _ => simp [writtenFields]

/-- A store to 0078H reaches PS[15:8] alone, so the frame of IL has no condition on the addresses stored to. -/
theorem exec_ps_il {i : Instr} {s t : State} (h : exec i s = .next t) (hil : .il ∉ writtenFields i) :
    t.ps.il = s.ps.il :=
  BitVec.eq_of_toNat_eq (unlistedFieldsKeepTheirValue i s t .il h hil (by simp))

/-! ## IL under interrupt entry and reset -/

theorem enterInterrupt_ps_il (r : Request) (s : State) : (enterInterrupt r s).ps.il = r.level := by
  rw [enterInterrupt_eq, State.withPc_ps, State.withPs_ps]

theorem resetSequence_ps_il (s : State) : (resetSequence s).ps.il = 3#2 := by
  obtain ⟨-, -, -, -, -, hps, -⟩ := resetSequence_regs s
  rw [hps, Status.reset]

/-- The sampling at a boundary changes IL only by the entry for the request accepted there. -/
theorem enters_of_sampleInterrupt_il_ne {s : State} (h : (sampleInterrupt s).ps.il ≠ s.ps.il) :
    ∃ r, s.boundary = { reset := false, irq := some r } ∧ s.accepts r = true ∧
      sampleInterrupt s = enterInterrupt r s := by
  rcases sampleInterrupt_cases s with ⟨hsame, -⟩ | ⟨r, hreset, hirq, haccepts, henters⟩
  · rw [hsame] at h
    exact absurd rfl h
  · exact ⟨r, by rw [← hreset, ← hirq], haccepts, henters⟩

/-! ## IL under a step -/

/-- Settles O59: a step resets, or executes an instruction and samples the boundary that ends it; an instruction that
does not write IL leaves the change to the sampling, which then enters the interrupt. -/
theorem onlyFourEventsChangeIl : Obligations.OnlyFourEventsChangeIl := by
  intro s t hstep hchange
  rcases step_next_cases hstep with ⟨hreset, rfl⟩ | ⟨hreset, i, rest, u, hdecode, hexec, rfl⟩
  · exact .inl ⟨hreset, resetSequence_ps_il _⟩
  · by_cases hwrites : .il ∈ writtenFields i
    · exact .inr (.inl ⟨hreset, i, rest, hdecode, (il_mem_writtenFields_iff i).1 hwrites⟩)
    · have hkept : u.ps.il = s.ps.il := by
        rw [exec_ps_il hexec hwrites, fetch_ps, State.withInputs_ps]
      rw [← hkept] at hchange
      obtain ⟨r, hboundary, haccepts, henters⟩ := enters_of_sampleInterrupt_il_ne hchange
      obtain ⟨-, hi, hlevel⟩ := (accepts_iff u r).1 haccepts
      exact .inr (.inr ⟨hreset, i, rest, u, r, hdecode, hexec, hkept, hboundary, haccepts, hi, hlevel, henters,
        by rw [henters, enterInterrupt_ps_il]⟩)

/-! ## One flag -/

/-- Settles O47: NOP is the advance of PC alone, and each of the others is that advance after the write of its flag. -/
theorem flagInstructions : Obligations.FlagInstructions := fun _ =>
  ⟨⟨_, rfl, advances_of_pc rfl, rfl⟩, ⟨_, rfl, advances_of_pc rfl, rfl⟩, ⟨_, rfl, advances_of_pc rfl, rfl⟩,
    ⟨_, rfl, advances_of_pc rfl, rfl⟩, ⟨_, rfl, advances_of_pc rfl, rfl⟩⟩

end Sys2Proof.Machine

/-! Every instruction's end, every step's boundary, and the acceptance and entry of an interrupt (10_state R21,
60_exceptions R341 to R355, R367). -/

namespace Sys2Proof.Machine

/-! ## PC under the shared operations -/

@[simp] theorem loadA8_pc (v : Byte) (s : State) : (loadA8 v s).pc = s.pc := rfl
@[simp] theorem loadA16_pc (v : Word) (s : State) : (loadA16 v s).pc = s.pc := rfl
@[simp] theorem compareBytes_pc (x y : Byte) (s : State) : (compareBytes x y s).pc = s.pc := rfl
@[simp] theorem compareAl_pc (m : Byte) (s : State) : (compareAl m s).pc = s.pc := rfl
@[simp] theorem addToAl_pc (m : Byte) (s : State) : (addToAl m s).pc = s.pc := rfl
@[simp] theorem subFromAl_pc (m : Byte) (s : State) : (subFromAl m s).pc = s.pc := rfl
@[simp] theorem xorAl_pc (m : Byte) (s : State) : (xorAl m s).pc = s.pc := rfl
@[simp] theorem andAl_pc (m : Byte) (s : State) : (andAl m s).pc = s.pc := rfl
@[simp] theorem orAl_pc (m : Byte) (s : State) : (orAl m s).pc = s.pc := rfl

theorem withByte_pc {k : Byte → State → State} (hk : ∀ v u, (k v u).pc = u.pc) (a : Word) (s : State) :
    (withByte a k s).pc = s.pc := by
  rw [withByte_eq, hk, readByte_pc]

theorem withWord_pc {k : Word → State → State} (hk : ∀ v u, (k v u).pc = u.pc) (a : Word) (s : State) :
    (withWord a k s).pc = s.pc := by
  rw [withWord_eq, hk, readWord_pc]

@[simp] theorem modifyByte_pc (a : Word) (f : Byte → Byte) (s : State) : (modifyByte a f s).pc = s.pc := by
  rw [modifyByte_eq, writeByte_pc, readByte_pc]

@[simp] theorem countReg_pc (a : Word) (f : Byte → Byte) (v : Byte → Bool) (s : State) :
    (countReg a f v s).pc = s.pc := modifyByte_pc a f s

@[simp] theorem divideT_pc (s : State) : (divideT s).pc = s.pc := by
  rw [divideT_eq]
  rfl

@[simp] theorem decimalAfterAdd_pc (s : State) : (decimalAfterAdd s).pc = s.pc := by
  rw [decimalAfterAdd_eq]
  rfl

/-! ## The end of an instruction -/

/-- An instruction that is no branch leaves PC alone until its end, which moves PC by the length of its encoding
(10_state R21). -/
theorem exec_finish_encode_length {i : Instr} (hbranch : isBranch i = false) (s : State) :
    ∃ u, exec i s = finish (encode i).length u ∧ u.pc = s.pc := by
  cases i with
  -- the branch group
  | bz | bnz | bc | bnc | bn | bp | blt | bge | bbc | bbs | jmpAtA | jmpExt | callExt | callv | xchwAPc | ret | reti =>
    cases hbranch
  -- registers and flags alone
  | movAImm | swap | xchAT | xchwAT | movwAPs | movwPsA | movwSpA | movwIxA | movwEpA | movwAImm | movwSpImm | movwIxImm
  | movwEpImm | movwAPc | movwASp | movwAIx | movwAEp | xchwASp | xchwAIx | xchwAEp | muluA | rolcA | rorcA | cmpA
  | cmpwA | cmpAImm | addcA | addcwA | addcAImm | subcA | subcwA | subcAImm | xorA | xorwA | xorAImm | andA | andwA
  | andAImm | orA | orwA | orAImm | das | incwA | incwSp | incwIx | incwEp | decwA | decwSp | decwIx | decwEp | nop
  | clrc | setc | clri | seti => exact ⟨_, rfl, rfl⟩
  | divuA => exact ⟨_, rfl, divideT_pc s⟩
  | daa => exact ⟨_, rfl, decimalAfterAdd_pc s⟩
  -- an operand read from memory
  | movADir | movAAtIx | movAAtEp | movAReg | movAExt | movAAtA => exact ⟨_, rfl, withByte_pc loadA8_pc _ s⟩
  | cmpADir | cmpAAtIx | cmpAAtEp | cmpAReg => exact ⟨_, rfl, withByte_pc compareAl_pc _ s⟩
  | addcADir | addcAAtIx | addcAAtEp | addcAReg => exact ⟨_, rfl, withByte_pc addToAl_pc _ s⟩
  | subcADir | subcAAtIx | subcAAtEp | subcAReg => exact ⟨_, rfl, withByte_pc subFromAl_pc _ s⟩
  | xorADir | xorAAtIx | xorAAtEp | xorAReg => exact ⟨_, rfl, withByte_pc xorAl_pc _ s⟩
  | andADir | andAAtIx | andAAtEp | andAReg => exact ⟨_, rfl, withByte_pc andAl_pc _ s⟩
  | orADir | orAAtIx | orAAtEp | orAReg => exact ⟨_, rfl, withByte_pc orAl_pc _ s⟩
  | cmpDirImm _ d8 | cmpAtIxImm _ d8 | cmpAtEpImm d8 | cmpRegImm _ d8 =>
    exact ⟨_, rfl, withByte_pc (fun m => compareBytes_pc m d8) _ s⟩
  | movwAAtA | movwAExt | movwADir | movwAAtIx | movwAAtEp => exact ⟨_, rfl, withWord_pc loadA16_pc _ s⟩
  | popwA | popwIx => exact ⟨_, rfl, pop16_pc s⟩
  -- stores
  | movDirA | movAtIxA | movAtEpA | movRegA | movExtA | movAtAT | movDirImm | movAtIxImm | movAtEpImm | movRegImm =>
    exact ⟨_, rfl, writeByte_pc _ _ s⟩
  | movwAtAT | movwExtA | movwDirA | movwAtIxA | movwAtEpA => exact ⟨_, rfl, writeWord_pc _ _ s⟩
  | clrb | setb => exact ⟨_, rfl, modifyByte_pc _ _ s⟩
  | incReg | decReg => exact ⟨_, rfl, countReg_pc _ _ _ s⟩
  | pushwA | pushwIx => exact ⟨_, rfl, push16_pc _ s⟩

/-- Settles O15: every instruction completes and leaves the product and the inputs, and one that is no branch ends with
the move of PC by its own length. -/
theorem everyInstructionCompletes : Obligations.EveryInstructionCompletes := by
  intro i s
  obtain ⟨t, hexec⟩ := exec_completes i s
  obtain ⟨hproduct, hinputs, -⟩ := exec_seen hexec
  refine ⟨t, hexec, hproduct, hinputs, fun hbranch => ?_⟩
  obtain ⟨u, hfinish, hpc⟩ := exec_finish_encode_length hbranch s
  obtain rfl := (finish_next_iff ..).1 (hfinish.symm.trans hexec)
  rw [State.advance_pc, nextPC_toNat, hpc]

/-! ## The step -/

/-- Settles O48: the decoded instruction completes, and the step goes on with the state it leaves. -/
theorem stepRunsDecodedInstruction : Obligations.StepRunsDecodedInstruction := by
  intro s i rest hreset hdecode
  obtain ⟨t, hexec⟩ := exec_completes i (fetch (s.withInputs s.inputs.tail)).2
  exact ⟨t, hexec, step_eq_sampleInterrupt hreset hdecode hexec⟩

theorem fetch_inputs_product (s : State) : (fetch s).2.inputs = s.inputs ∧ (fetch s).2.product = s.product := by
  rw [fetch_state]
  exact ⟨rfl, rfl⟩

/-- The sampling at a boundary neither consumes a boundary nor touches the product. -/
theorem sampleInterrupt_inputs_product (s : State) :
    (sampleInterrupt s).inputs = s.inputs ∧ (sampleInterrupt s).product = s.product := by
  rcases sampleInterrupt_cases s with ⟨hsame, -⟩ | ⟨r, -, -, -, henters⟩
  · rw [hsame]
    exact ⟨rfl, rfl⟩
  · obtain ⟨-, -, -, -, hproduct, hinputs, -⟩ := enterInterrupt_regs r s
    rw [henters]
    exact ⟨hinputs, hproduct⟩

/-- Settles O51: the step takes one boundary off the inputs before anything else, and neither the reset sequence nor the
fetch, an instruction or the sampling touches the inputs or the product. -/
theorem stepConsumesOneBoundary : Obligations.StepConsumesOneBoundary := by
  intro s t hstep
  rcases step_next_cases hstep with ⟨-, rfl⟩ | ⟨-, i, rest, u, -, hexec, rfl⟩
  · obtain ⟨-, -, -, -, -, -, -, hproduct, hinputs, -⟩ := resetSequence_regs (s.withInputs s.inputs.tail)
    exact ⟨hinputs, hproduct⟩
  · obtain ⟨hsampledInputs, hsampledProduct⟩ := sampleInterrupt_inputs_product u
    obtain ⟨hproduct, hinputs, -⟩ := exec_seen hexec
    obtain ⟨hfetchedInputs, hfetchedProduct⟩ := fetch_inputs_product (s.withInputs s.inputs.tail)
    exact ⟨hsampledInputs.trans (hinputs.trans hfetchedInputs), hsampledProduct.trans (hproduct.trans hfetchedProduct)⟩

/-! ## The acceptance of a request -/

/-- A request presented without reset that meets the condition is entered (60_exceptions R346). -/
theorem sampleInterrupt_of_accepts {r : Request} {s : State}
    (hboundary : s.boundary = { reset := false, irq := some r }) (haccepts : s.accepts r = true) :
    sampleInterrupt s = enterInterrupt r s := by
  have haccepted : s.accepted = some r := (accepted_eq_some_iff s r).2 ⟨by rw [hboundary], by rw [hboundary], haccepts⟩
  rw [sampleInterrupt, haccepted]

/-- Where every request presented without reset fails the condition, nothing changes (60_exceptions R346, R352). -/
theorem sampleInterrupt_of_not_accepts {s : State}
    (h : ∀ r, s.boundary.reset = false → s.boundary.irq = some r → s.accepts r = false) : sampleInterrupt s = s := by
  rcases sampleInterrupt_cases s with ⟨hsame, -⟩ | ⟨r, hreset, hirq, haccepts, -⟩
  · exact hsame
  · rw [h r hreset hirq] at haccepts
    contradiction

/-- With I = 0, with IL = 0, at level 3 or at a level not below IL no request is accepted: level 3 is the highest value
of IL, and IL = 0 leaves no level below it (60_exceptions R346, R347). -/
theorem accepts_eq_false {r : Request} {s : State}
    (h : s.ps.i = false ∨ s.ps.il = 0#2 ∨ r.level = 3#2 ∨ s.ps.il.toNat ≤ r.level.toNat) : s.accepts r = false := by
  rw [← Bool.not_eq_true, accepts_iff]
  rintro ⟨-, hi, hlevel⟩
  rcases h with hmasked | hil | hlowest | hle
  · rw [hi] at hmasked
    contradiction
  · rw [hil] at hlevel
    exact Nat.not_lt_zero _ hlevel
  · rw [hlowest] at hlevel
    exact absurd s.ps.il.isLt (Nat.not_lt.2 hlevel)
  · exact absurd hlevel (Nat.not_lt.2 hle)

/-- Settles O56: the condition of R346 decides at a boundary without reset; at any other, or with no request, there is
nothing to accept. -/
theorem interruptAcceptance : Obligations.InterruptAcceptance := by
  refine ⟨fun r s hboundary => ⟨fun hnumber hlevel hi => ?_, fun hrefused => ?_⟩, fun s hnone => ?_⟩
  · exact sampleInterrupt_of_accepts hboundary ((accepts_iff s r).2 ⟨hnumber, hi, hlevel⟩)
  · refine sampleInterrupt_of_not_accepts fun r' _ hirq => ?_
    rw [hboundary] at hirq
    cases hirq
    exact accepts_eq_false hrefused
  · refine sampleInterrupt_of_not_accepts fun r hreset hirq => ?_
    rcases hnone with hasserted | hempty
    · rw [hreset] at hasserted
      contradiction
    · rw [hirq] at hempty
      contradiction

/-! ## Interrupt entry -/

/-- PC after interrupt entry is the word at the vector, read before the frame is written (60_exceptions R350). -/
theorem enterInterrupt_pc (r : Request) (s : State) : (enterInterrupt r s).pc = s.wordAt (irqVector r.number) := by
  rw [enterInterrupt_eq, State.withPc_pc]

/-- The flags and I after interrupt entry: its frame can meet PS[15:8] alone (60_exceptions R351; decision D4, log
16). -/
theorem enterInterrupt_flags (r : Request) (s : State) :
    (enterInterrupt r s).ps.i = s.ps.i ∧ (enterInterrupt r s).ps.h = s.ps.h ∧ (enterInterrupt r s).ps.n = s.ps.n ∧
      (enterInterrupt r s).ps.z = s.ps.z ∧ (enterInterrupt r s).ps.v = s.ps.v ∧
      (enterInterrupt r s).ps.c = s.ps.c := by
  simp [enterInterrupt]

/-- A frame elsewhere than at 0078H leaves RP and DP. -/
theorem enterInterrupt_rp_dp (r : Request) {s : State} (hframe : mirrorAddr ∉ entryFrame s) :
    (enterInterrupt r s).ps.rp = s.ps.rp ∧ (enterInterrupt r s).ps.dp = s.ps.dp := by
  have hread : s.readsInside mirrorAddr = true := by simp [State.readsInside]
  have hsame := byteAt_enterInterrupt_other r hread hframe
  rw [byteAt_mirror, byteAt_mirror] at hsame
  exact Status.rp_dp_of_high hsame

/-- A push that the machine keeps shows the environment nothing. -/
theorem push16_bus_inside {s : State} (w : Word) (h1 : s.storesInside (s.sp - 1) = true)
    (h2 : s.storesInside (s.sp - 2) = true) : (push16 w s).bus = s.bus := by
  simp only [push16_bus, Claims.sent, h1, h2, if_true, List.nil_append]

/-- Interrupt entry shows the environment nothing where the machine answers the vector and keeps the frame. -/
theorem enterInterrupt_bus {r : Request} {s : State} (hkept : ∀ a ∈ entryFrame s, s.storesInside a = true)
    (hv : s.readsInside (irqVector r.number) = true) (hv1 : s.readsInside (irqVector r.number + 1) = true) :
    (enterInterrupt r s).bus = s.bus := by
  obtain ⟨h1, h2, h3, h4⟩ := forall_entryFrame.1 hkept
  have hsecond : (push16 s.ps.toWord (push16 s.pc s)).bus = (push16 s.pc s).bus := by
    apply push16_bus_inside
    · rwa [push16_sp, push16_storesInside, sub_two_sub_one]
    · rwa [push16_sp, push16_storesInside, sub_two_sub_two]
  rw [enterInterrupt_eq, State.withPc_bus, State.withPs_bus, pushFrame, readWord_inside hv hv1, hsecond,
    push16_bus_inside s.pc h1 h2]

/-- Settles O57: the two words of the frame, the word at the vector, and what the two pushes leave. -/
theorem interruptEntry : Obligations.InterruptEntry := by
  intro r s hkept hv hv1
  obtain ⟨ha, ht, hix, hep, -⟩ := enterInterrupt_regs r s
  obtain ⟨hi, hh, hn, hz, hov, hc⟩ := enterInterrupt_flags r s
  have hpc : (enterInterrupt r s).pc.toNat =
      256 * (s.byteAt (irqVector r.number)).toNat + (s.byteAt (irqVector r.number + 1)).toNat := by
    rw [enterInterrupt_pc, wordAt_inside hv hv1, join_toNat]
  exact ⟨enterInterrupt_sp r s, wordAt_enterInterrupt_ps hkept r, wordAt_enterInterrupt_pc hkept r, hpc,
    enterInterrupt_ps_il r s, hi, hh, hn, hz, hov, hc, enterInterrupt_rp_dp r, ha, ht, hix, hep,
    enterInterrupt_bus hkept hv hv1, fun b hframe hb => byteAt_enterInterrupt_other r hb hframe⟩

end Sys2Proof.Machine

/-! The reset step: the registers at their reset values before anything is read, and the reset vector's word fetched
after them (70_reset R381, 60_exceptions R352). -/

namespace Sys2Proof.Machine

/-! ## The registers before the reset vector is read -/

/-- The state with every register but PC at its reset value, in which the reset sequence reads (70_reset R381). -/
def State.withRegistersReset (s : State) : State :=
  { s with a := 0x0000#16, t := 0x0000#16, ix := 0x0000#16, ep := 0x0000#16, sp := 0x0000#16, ps := Status.reset }

theorem resetSequence_eq (s : State) :
    resetSequence s =
      (readWord resetVector (readByte false modeByteAddr s.withRegistersReset).2).2.withPc
        (readWord resetVector (readByte false modeByteAddr s.withRegistersReset).2).1 := rfl

@[simp] theorem State.withRegistersReset_readsInside (s : State) (b : Word) :
    s.withRegistersReset.readsInside b = s.readsInside b := rfl

/-- The registers show in memory at 0078H alone, where PS[15:8] stands (20_memory R79). -/
theorem byteAt_withRegistersReset {b : Word} {s : State} (hb : s.readsInside b = true) (hne : b ≠ mirrorAddr) :
    s.withRegistersReset.byteAt b = s.byteAt b :=
  byteAt_inside_congr hb rfl rfl fun hmirror => absurd hmirror hne

/-! ## The reset sequence -/

/-- Where the machine answers the mode byte and the vector itself, the reset sequence shows the environment nothing and
loads PC with the word at the vector. -/
theorem resetSequence_inside {s : State} (hmode : s.readsInside modeByteAddr = true)
    (hv : s.readsInside resetVector = true) (hv1 : s.readsInside (resetVector + 1) = true) :
    resetSequence s = s.withRegistersReset.withPc (join (s.byteAt resetVector) (s.byteAt (resetVector + 1))) := by
  have hhi : s.withRegistersReset.byteAt resetVector = s.byteAt resetVector :=
    byteAt_withRegistersReset hv (by decide)
  have hlo : s.withRegistersReset.byteAt (resetVector + 1) = s.byteAt (resetVector + 1) :=
    byteAt_withRegistersReset hv1 (by decide)
  have hfirst : readByte false modeByteAddr s.withRegistersReset = _ :=
    readByte_inside false ((s.withRegistersReset_readsInside _).trans hmode)
  have hword : readWord resetVector s.withRegistersReset = _ :=
    readWord_inside ((s.withRegistersReset_readsInside _).trans hv) ((s.withRegistersReset_readsInside _).trans hv1)
  rw [resetSequence_eq, hfirst, hword, hhi, hlo]

theorem Status.reset_toWord : Status.reset.toWord = 0x0030#16 := by decide

/-- Settles O55: the step is the reset sequence on the inputs after the boundary; it sets the registers, writes no
memory, and its last read is the reset vector. -/
theorem resetStep : Obligations.ResetStep := by
  intro s hreset
  obtain ⟨ha, ht, hix, hep, hsp, hps, hmem, -, hinputs, -⟩ := resetSequence_regs (s.withInputs s.inputs.tail)
  refine ⟨_, step_of_reset hreset, ha, ht, hix, hep, hsp, ?_, hmem, hinputs, fun hmode hv hv1 => ?_⟩
  · rw [hps, Status.reset_toWord]
  · have hvector : resetSequence (s.withInputs s.inputs.tail) = _ := resetSequence_inside hmode hv hv1
    rw [hvector, State.withPc_bus, State.withPc_pc, join_toNat, State.withInputs_byteAt, State.withInputs_byteAt]
    exact ⟨rfl, rfl⟩

end Sys2Proof.Machine
